-- ==== Sys2Proof/Word.lean ====
section
/-! DEFINITION. The two value types of the hardware: the 256-bit Word (10_state R22, 00_scope R8) and the byte
(00_scope R10). A Word is an integer in `[0, 2^256)`; there is no signed reading of it anywhere (R11). -/

namespace Sys2Proof

/-- The type of every stack element (10_state R22). -/
abbrev Word := BitVec 256

/-- An integer 0 to 255 (00_scope R10). -/
abbrev Byte := BitVec 8

end Sys2Proof
end

