-- ==== Sys2Proof/Machine/Operands.lean ====
section
/-! DEFINITION. The operand forms: bytes of a Word and the byte orders between Words and byte sequences (00_scope R9 to
R11, 20_memory R62, R63, 30_encoding R95), and the low 64 bits that an offset or a size keeps (20_memory R65). Every
instruction's operands are stack elements or the PUSH immediate (30_encoding R96); there are no registers. -/

namespace Sys2Proof.Machine

/-- `byte(v, i) = v[8i+7 : 8i]`, byte 0 the least significant (00_scope R9). -/
def byteOf (v : Word) (i : Nat) : Byte := v.extractLsb' (8 * i) 8

/-- `be(s) = Σ s[j] · 256^(len(s)-1-j)`, the first byte the most significant (00_scope R10). -/
def beNat : List Byte → Nat
  | [] => 0
  | b :: rest => b.toNat * 256 ^ rest.length + beNat rest

/-- `be(s)` zero-extended to a Word (00_scope R11, 30_encoding R95); for at most 32 bytes nothing is lost. -/
def beWord (s : List Byte) : Word := BitVec.ofNat 256 (beNat s)

/-- The low `n` bytes of `v`, most significant first: element `i` is `byte(v, n-1-i)` (30_encoding R92, R95). -/
def beBytes : Nat → Word → List Byte
  | 0, _ => []
  | n + 1, v => byteOf v n :: beBytes n v

/-- `be32(v)`: the 32 bytes of a Word, element `i` being `byte(v, 31-i)` (00_scope R10). -/
def be32 (v : Word) : List Byte := beBytes 32 v

/-- `word_of_le(b0, …) = Σ b_i · 256^i` as a number, index 0 the least significant byte (00_scope R9). -/
def leNat : List Byte → Nat
  | [] => 0
  | b :: rest => b.toNat + 256 * leNat rest

/-- `word_of_le(b0, …, b31)` (00_scope R9). -/
def wordOfLe (s : List Byte) : Word := BitVec.ofNat 256 (leNat s)

/-- The low `n` bytes of `v`, least significant first: element `i` is `byte(v, i)` (00_scope R9). -/
def leBytesFrom : Nat → Nat → Word → List Byte
  | 0, _, _ => []
  | n + 1, i, v => byteOf v i :: leBytesFrom n (i + 1) v

/-- The source's "32 bytes, little-endian" layout of a Word (00_scope R9, 10_state R22). -/
def le32 (v : Word) : List Byte := leBytesFrom 32 0 v

/-- `low64(v) = v mod 2^64`: all that an offset or a size keeps of its Word (20_memory R65, 43_mstore R241). -/
def low64 (v : Word) : Nat := v.toNat % 2 ^ 64

end Sys2Proof.Machine
end

