-- ==== Sys2Proof/Machine/Mau.lean ====
section
/-! DEFINITION. The MAU: the three functions of 40_word_arithmetic R120 to R122, computed exactly on integers and narrowed
to 256 bits at the end, and beside them the byte-serial realisations R133 to R135 that the source describes. The
meanings use the former (R132). -/

namespace Sys2Proof.Machine

/-- `add(A, B) = (A + B) mod 2^256` (R120). -/
def mauAdd (a b : Word) : Word := BitVec.ofNat 256 (a.toNat + b.toNat)

/-- `sub(A, B) = (A - B) mod 2^256`, `A` the minuend (R121). -/
def mauSub (a b : Word) : Word := BitVec.ofInt 256 ((a.toNat : Int) - (b.toNat : Int))

/-- `mul(A, B) = (A · B) mod 2^256` (R122). -/
def mauMul (a b : Word) : Word := BitVec.ofNat 256 (a.toNat * b.toNat)

/-! ### The byte-serial realisations; bytes are listed least significant first -/

/-- The loop of `add` (R133): the result bytes and the final carry. -/
def addBytes : List Byte → List Byte → Nat → List Byte × Nat
  | a :: as, b :: bs, carry =>
    let t := a.toNat + b.toNat + carry
    let r := addBytes as bs (t / 256)
    (BitVec.ofNat 8 t :: r.1, r.2)
  | _, _, carry => ([], carry)

/-- `add`, byte by byte; the final carry is discarded (R133). -/
def mauAddSerial (a b : Word) : Word := wordOfLe (addBytes (le32 a) (le32 b) 0).1

/-- The loop of `sub` (R134): the result bytes and the final borrow. -/
def subBytes : List Byte → List Byte → Int → List Byte × Int
  | a :: as, b :: bs, borrow =>
    let t : Int := (a.toNat : Int) - (b.toNat : Int) - borrow
    let r := if t < 0 then subBytes as bs 1 else subBytes as bs 0
    (BitVec.ofInt 8 (if t < 0 then t + 256 else t) :: r.1, r.2)
  | _, _, borrow => ([], borrow)

/-- `sub`, byte by byte; the final borrow is discarded (R134). -/
def mauSubSerial (a b : Word) : Word := wordOfLe (subBytes (le32 a) (le32 b) 0).1

/-- The inner loop of `mul` (R135) for one byte `a[i]`: it runs along the bytes of `B` and the scratch bytes from position
`i` on, and leaves the carry in the scratch byte after the last one. -/
def mulRow (a : Byte) : List Byte → List Byte → Nat → List Byte
  | b :: bs, s :: ss, carry =>
    let t := s.toNat + a.toNat * b.toNat + carry
    BitVec.ofNat 8 t :: mulRow a bs ss (t / 256)
  | [], _ :: ss, carry => BitVec.ofNat 8 carry :: ss
  | _, [], _ => []

/-- The outer loop of `mul` (R135): the row of `a[0]` on the whole scratch buffer, then the later rows one byte up. -/
def mulRows : List Byte → List Byte → List Byte → List Byte
  | [], _, scratch => scratch
  | a :: as, bs, scratch =>
    match mulRow a bs scratch 0 with
    | [] => []
    | s :: rest => s :: mulRows as bs rest

/-- The 64-byte scratch buffer after the loops of `mul` (R135), least significant byte first. -/
def mulScratch (a b : Word) : List Byte := mulRows (le32 a) (le32 b) (List.replicate 64 0#8)

/-- `mul`, byte by byte: the low 32 bytes of the scratch buffer (R135). -/
def mauMulSerial (a b : Word) : Word := wordOfLe ((mulScratch a b).take 32)

end Sys2Proof.Machine
end

