-- ==== Sys2Proof/Config.lean ====
section
/-! DEFINITION. The parameters the spec leaves open (00_scope R7, 92 D5 to D8), as plain data: State carries one
`Config` that nothing changes, so a statement over all states holds for every choice of them (log 2). The spec leaves
no result of an instruction open, so the model needs no free value. -/

namespace Sys2Proof

/-- The four parameters of 00_scope R7. -/
structure Config where
  /-- `MEM_MAX`: the greatest length in bytes of a frame's memory (D8). -/
  memMax : Nat
  /-- `CODE_MAX`: the greatest length in bytes of a code buffer (D5). -/
  codeMax : Nat
  /-- `MAX_FRAMES`: the greatest number of frames on the chain (D7). -/
  maxFrames : Nat
  /-- `GAS_BITS`: the width of `gas_left` (D6). -/
  gasBits : Nat
  deriving DecidableEq, Repr

/-- The bounds the spec puts on the parameters (00_scope R7). -/
abbrev Config.wf (c : Config) : Prop :=
  32 ≤ c.memMax ∧ c.memMax ≤ 2 ^ 64 ∧ 1 ≤ c.codeMax ∧ 1 ≤ c.maxFrames ∧ 1 ≤ c.gasBits

/-- DESIGN CHOICE (log 2, unsafe): the parameters `State.reset` carries. `MEM_MAX = 2^64` is the value the spec's own
vectors use (95_test_vectors, introduction); the spec gives no value for the other three. -/
def Config.default : Config :=
  { memMax := 2 ^ 64, codeMax := 2 ^ 64, maxFrames := 2 ^ 64, gasBits := 64 }

end Sys2Proof
end

