-- ==== Sys2Proof/Machine/State.lean ====
section
/-! DEFINITION. The architectural state, in full (10_state R20), as plain data, with the state after reset (10_state R44,
70_reset R340). -/

namespace Sys2Proof.Machine

/-- A byte sequence `[0, len)`: a frame's memory (10_state R26) or the return data (R36). `cells` lists the bytes that are
not what an unlisted address reads as, at strictly rising addresses below `len` (the canonical form `Memory.wf`, log 8). -/
structure Memory where
  /-- The length in bytes, itself state (10_state R26). -/
  len : Nat
  cells : List Host.Cell
  deriving DecidableEq, Repr

/-- The byte sequence of length 0. -/
def Memory.empty : Memory := { len := 0, cells := [] }

/-- A frame designator: the position of a frame in the chain, 0 for the root (10_state R23; DESIGN CHOICE, log 5). -/
abbrev FrameRef := Nat

/-- An opaque reference of the host (10_state R37, R38); the core never looks at it. -/
abbrev Handle := Nat

/-- The fault categories of the hardware (60_exceptions R300 to R305). -/
inductive FaultCategory where
  /-- An operation needs more operands than present (R301). -/
  | stackUnderflow
  /-- The stack would exceed its 1024 entries (R302). -/
  | stackOverflow
  /-- A PUSH whose immediate runs past the end of the code (R303). -/
  | truncatedImmediate
  /-- An opcode byte that no instruction has (R304). -/
  | unsupportedOpcode
  /-- Memory would have to be longer than `MEM_MAX` (R305). -/
  | memoryLimit
  deriving DecidableEq, Repr

/-- The loop state (10_state R33). -/
inductive RunState where
  | halted
  | running
  deriving DecidableEq, Repr

/-- A call frame (10_state R20(b), R25 to R31). -/
structure Frame where
  /-- The operand stack, TOP FIRST: `S[n]` of the spec is element `n` (10_state R25; log 9). -/
  stack : List Word
  /-- The frame's memory (10_state R26). -/
  mem : Memory
  /-- The offset in `code` of the next byte to fetch (10_state R27). -/
  pc : Nat
  /-- The length of the code buffer, the exclusive bound of `pc` (10_state R27). -/
  codeEnd : Nat
  /-- The frame's immutable code buffer (10_state R29; log 7). -/
  code : List Byte
  /-- The inert gas field (10_state R30). -/
  gasLeft : Nat
  /-- The frame that becomes current when this one retires, none for the root (10_state R31). -/
  caller : Option FrameRef
  deriving DecidableEq, Repr

/-- The state of the machine (10_state R20). -/
structure State where
  /-- The call chain, root first, the current frame last (10_state R23). -/
  chain : List Frame
  /-- The current-frame pointer (10_state R24). -/
  cur : Option FrameRef
  /-- The return-data buffer (10_state R36). -/
  retdata : Memory
  /-- The module-instance handle `module` (10_state R37). -/
  moduleHandle : Handle
  /-- The stack-manager handle `stackmgr` (10_state R38). -/
  stackMgr : Handle
  /-- The loop state (10_state R33). -/
  run : RunState
  /-- The fault register, none for None (10_state R34). -/
  fault : Option FaultCategory
  /-- The MODEL's own field: the parameters of 00_scope R7, which nothing changes (log 2). -/
  config : Config
  deriving DecidableEq, Repr

/-- Why the model stops. A fault of the HARDWARE is not one of these: it is a next state (60_exceptions R310, log 1). Both
arise only in states that no run reaches (log 10), and both are safe: nothing is claimed where the model stops. -/
inductive Fault where
  /-- An instruction or a step of the running loop finds no current frame, which 10_state R33 rules out. Raised by the loop
  and by every meaning. Safe. -/
  | noCurrentFrame
  /-- The loop has to fetch a code byte that does not exist: `pc` beyond `code_end`, or `code_end` beyond the buffer, which
  10_state R27, R29 and R32 rule out. Raised by the loop. Safe. -/
  | codeUnreadable
  deriving DecidableEq, Repr

/-- Why an instruction has no meaning. -/
inductive Refusal where
  /-- An instruction not modelled yet, by its mnemonic; no arm of exec says so. Safe. -/
  | notModelled (mnemonic : String)
  deriving DecidableEq, Repr

/-- The outcome of a step or of a meaning. -/
abbrev Result := Host.Outcome State Fault Refusal

/-- The state right after reset (10_state R44, 70_reset R340): no frame, empty return data, Halted, no fault. The handles,
unspecified by the spec, are 0 (DESIGN CHOICE, log 3), and the parameters are `Config.default` (DESIGN CHOICE, log 2). -/
def State.reset : State :=
  { chain := [], cur := none, retdata := Memory.empty, moduleHandle := 0, stackMgr := 0,
    run := .halted, fault := none, config := Config.default }

end Sys2Proof.Machine
end

