-- ==== Sys2Proof/Machine/Ops.lean ====
section
/-! DEFINITION. The named operations the meanings are written in: the byte sequences (20_memory R66 to R68), the stack
primitives (41_stack_ops R150 to R152), the current frame, the retirement of a frame (44 R253) and the entry of a fault
(60_exceptions R310). -/

namespace Sys2Proof.Machine

/-! ### Byte sequences -/

/-- What an unlisted address of a byte sequence reads as: growth always zero-fills (20_memory R66, 10_state R26; log 8). -/
def unlistedByte : Byte := 0#8

/-- The canonical form: addresses strictly rising, no entry equal to `unlistedByte`, every entry inside the sequence. -/
abbrev Memory.wf (m : Memory) : Prop :=
  m.cells.Pairwise (fun c d => c.1 < d.1) ∧ ∀ c ∈ m.cells, c.2 ≠ unlistedByte ∧ c.1 < m.len

/-- The byte a list of cells gives an address. -/
def readCells : List Host.Cell → Nat → Byte
  | [], _ => unlistedByte
  | (k, b) :: rest, a => if a = k then b else readCells rest a

/-- Put a byte at an address, keeping the list canonical. -/
def setCell : List Host.Cell → Nat → Byte → List Host.Cell
  | [], a, v => if v = unlistedByte then [] else [(a, v)]
  | (k, b) :: rest, a, v =>
    if a < k then (if v = unlistedByte then (k, b) :: rest else (a, v) :: (k, b) :: rest)
    else if a = k then (if v = unlistedByte then rest else (a, v) :: rest)
    else (k, b) :: setCell rest a v

/-- Byte `a` of the sequence, for `a < len` (20_memory R60). -/
def Memory.read (m : Memory) (a : Nat) : Byte := readCells m.cells a

/-- Byte `a`, none at and beyond the length, where there is no byte (20_memory R60, 10_state R42). -/
def Memory.byteAt? (m : Memory) (a : Nat) : Option Byte := if a < m.len then some (m.read a) else none

/-- The bytes in order, as the host's accessor hands them over (45 R287). -/
def Memory.toList (m : Memory) : List Byte := (List.range m.len).map m.read

/-- `MemGrow(n)` (20_memory R66): to exactly `n` bytes, the new ones zero; never shrinks; MemoryLimit above `MEM_MAX`. -/
def Memory.grow (memMax n : Nat) (m : Memory) : Except FaultCategory Memory :=
  if memMax < n then .error .memoryLimit
  else .ok { m with len := max m.len n }

/-- One byte of a `MemWrite`. -/
def Memory.writeByte (m : Memory) (a : Nat) (b : Byte) : Memory := { m with cells := setCell m.cells a b }

/-- `MemWrite(addr, len(s), s)` (20_memory R68): `mem[addr + i] <- s[i]`, every other byte unchanged. -/
def Memory.write (m : Memory) (addr : Nat) : List Byte → Memory
  | [] => m
  | b :: rest => (m.writeByte addr b).write (addr + 1) rest

/-- `MemRead(addr, n)` (20_memory R67): the `n` bytes from `addr` on, as a byte sequence of their own. -/
def Memory.slice (m : Memory) (addr n : Nat) : Memory :=
  { len := n
    cells := (m.cells.filter fun c => decide (addr ≤ c.1 ∧ c.1 < addr + n)).map fun c => (c.1 - addr, c.2) }

/-! ### The stack of a frame -/

/-- The capacity of the operand stack, fixed by the source (00_scope R6, 10_state R25). -/
def stackMax : Nat := 1024

/-- `depth` (10_state R25, R39). -/
def Frame.depth (f : Frame) : Nat := f.stack.length

/-- The check of the number of entries, ahead of what the instruction does (41_stack_ops R154). -/
def Frame.require (n : Nat) (f : Frame) : Except FaultCategory Unit :=
  if n ≤ f.depth then .ok () else .error .stackUnderflow

/-- `push(v)` (41_stack_ops R150). -/
def Frame.push (v : Word) (f : Frame) : Except FaultCategory Frame :=
  if stackMax ≤ f.depth then .error .stackOverflow
  else .ok { f with stack := v :: f.stack }

/-- `pop()` (41_stack_ops R151). -/
def Frame.pop (f : Frame) : Except FaultCategory (Word × Frame) :=
  match f.stack with
  | [] => .error .stackUnderflow
  | v :: rest => .ok (v, { f with stack := rest })

/-- `peek(n)`, read (41_stack_ops R152). -/
def Frame.peek (n : Nat) (f : Frame) : Except FaultCategory Word :=
  match f.stack[n]? with
  | none => .error .stackUnderflow
  | some v => .ok v

/-- `S[n] <- v`, the write through the reference that `peek(n)` returns (41_stack_ops R152). -/
def Frame.poke (n : Nat) (v : Word) (f : Frame) : Frame := { f with stack := f.stack.set n v }

/-- A frame as `allocate_frame` creates it (10_state R45). -/
def Frame.fresh (code : List Byte) (gas : Nat) (caller : Option FrameRef) : Frame :=
  { stack := [], mem := Memory.empty, pc := 0, codeEnd := code.length, code := code, gasLeft := gas, caller := caller }

/-! ### The current frame -/

/-- `nframes` (10_state R35). -/
def State.nframes (s : State) : Nat := s.chain.length

/-- `F`, the frame that `cur` designates (00_scope R12, 10_state R24). -/
def State.frame? (s : State) : Option Frame :=
  match s.cur with
  | none => none
  | some i => s.chain[i]?

/-- The state with its current frame replaced; no other frame is touched (44 R264). -/
def State.setFrame (s : State) (f : Frame) : State :=
  match s.cur with
  | none => s
  | some i => { s with chain := s.chain.set i f }

/-- Release the current frame `f`: it leaves the chain and its caller becomes current (45 R283). -/
def State.release (s : State) (f : Frame) : State :=
  match s.cur with
  | none => s
  | some i => { s with chain := s.chain.eraseIdx i, cur := f.caller }

/-- `retire()` of the current frame `f` (44 R253): release it; when it was the root, the run is over. -/
def State.retire (s : State) (f : Frame) : State :=
  match f.caller with
  | none => { s.release f with run := .halted }
  | some _ => s.release f

/-! ### Faults -/

/-- `raise X`, the entry of a fault (60_exceptions R310), a next state of the machine (log 1). There is no return from a
fault (R311): what ended is the interpretation, and the host starts another. -/
def State.raise (s : State) (c : FaultCategory) : State :=
  { s with chain := [], cur := none, fault := some c, run := .halted }

/-- Run the body of an instruction on the current frame; a fault of the body abandons it and enters the fault. -/
def onFrame (body : Frame → Except FaultCategory Frame) (s : State) : Result :=
  match s.frame? with
  | none => .fault .noCurrentFrame
  | some f =>
    match body f with
    | .ok f' => .next (s.setFrame f')
    | .error c => .next (s.raise c)

end Sys2Proof.Machine
end

