-- ==== Sys2Proof/Machine/Arith.lean ====
section
/-! DEFINITION. ADD, MUL and SUB (40_word_arithmetic R125 to R128). A meaning acts on the state after fetch, in which `pc`
is already past the opcode byte (44 R250). -/

namespace Sys2Proof.Machine

/-- The common body (R128): two entries needed; the first pop is the right-hand operand `B`, the second the left-hand `A`. -/
def Frame.binary (op : Word → Word → Word) (f : Frame) : Except FaultCategory Frame := do
  f.require 2
  let (b, f) ← f.pop
  let (a, f) ← f.pop
  f.push (op a b)

/-- ADD (R125). -/
def execAdd (s : State) : Result := onFrame (Frame.binary mauAdd) s

/-- MUL (R126). -/
def execMul (s : State) : Result := onFrame (Frame.binary mauMul) s

/-- SUB (R127): the second entry minus the top. -/
def execSub (s : State) : Result := onFrame (Frame.binary mauSub) s

end Sys2Proof.Machine
end

