-- ==== Sys2Proof/Machine/Control.lean ====
section
/-! DEFINITION. STOP and RETURN (44_control_and_loop R253, R254, R256, R258). -/

namespace Sys2Proof.Machine

/-- STOP (44 R254): the current frame retires, whatever its stack and memory hold. -/
def execStop (s : State) : Result :=
  match s.frame? with
  | none => .fault .noCurrentFrame
  | some f => .next (s.retire f)

/-- The operands and the copy of RETURN (44 R256): `offset` is the top, `size` the entry below it; memory is grown to cover
the range, also for a size of 0 (R258(a)), and the range is copied out. -/
def Frame.returnData (memMax : Nat) (f : Frame) : Except FaultCategory Memory := do
  f.require 2
  let (offset, f) ← f.pop
  let (size, f) ← f.pop
  let mem ← f.mem.grow memMax (low64 offset + low64 size)
  pure (mem.slice (low64 offset) (low64 size))

/-- RETURN (44 R256): the copy replaces the whole return-data buffer, then the frame retires as by STOP. -/
def execReturn (s : State) : Result :=
  match s.frame? with
  | none => .fault .noCurrentFrame
  | some f =>
    match f.returnData s.config.memMax with
    | .error c => .next (s.raise c)
    | .ok data => .next ({ s with retdata := data }.retire f)

end Sys2Proof.Machine
end

