-- ==== Sys2Proof/Machine/Push.lean ====
section
/-! DEFINITION. PUSH1 to PUSH32 (42_push R200 to R233). The immediate `be(F.code[pc : pc+N))` is the instruction's operand,
assembled by the decoder from those bytes (30_encoding R95). -/

namespace Sys2Proof.Machine

/-- The body of PUSH`n` (R200): the length check comes before the push (60_exceptions R308(a)), and `pc`, already past the
opcode byte, advances by `n`. -/
def Frame.pushImm (n : Nat) (imm : Word) (f : Frame) : Except FaultCategory Frame :=
  if f.codeEnd - f.pc < n then .error .truncatedImmediate
  else do
    let f ← f.push imm
    pure { f with pc := f.pc + n }

/-- PUSH1 (R202). -/
def execPush1 (imm : Word) (s : State) : Result := onFrame (Frame.pushImm 1 imm) s

/-- PUSH2 (R203). -/
def execPush2 (imm : Word) (s : State) : Result := onFrame (Frame.pushImm 2 imm) s

/-- PUSH3 (R204). -/
def execPush3 (imm : Word) (s : State) : Result := onFrame (Frame.pushImm 3 imm) s

/-- PUSH4 (R205). -/
def execPush4 (imm : Word) (s : State) : Result := onFrame (Frame.pushImm 4 imm) s

/-- PUSH5 (R206). -/
def execPush5 (imm : Word) (s : State) : Result := onFrame (Frame.pushImm 5 imm) s

/-- PUSH6 (R207). -/
def execPush6 (imm : Word) (s : State) : Result := onFrame (Frame.pushImm 6 imm) s

/-- PUSH7 (R208). -/
def execPush7 (imm : Word) (s : State) : Result := onFrame (Frame.pushImm 7 imm) s

/-- PUSH8 (R209). -/
def execPush8 (imm : Word) (s : State) : Result := onFrame (Frame.pushImm 8 imm) s

/-- PUSH9 (R210). -/
def execPush9 (imm : Word) (s : State) : Result := onFrame (Frame.pushImm 9 imm) s

/-- PUSH10 (R211). -/
def execPush10 (imm : Word) (s : State) : Result := onFrame (Frame.pushImm 10 imm) s

/-- PUSH11 (R212). -/
def execPush11 (imm : Word) (s : State) : Result := onFrame (Frame.pushImm 11 imm) s

/-- PUSH12 (R213). -/
def execPush12 (imm : Word) (s : State) : Result := onFrame (Frame.pushImm 12 imm) s

/-- PUSH13 (R214). -/
def execPush13 (imm : Word) (s : State) : Result := onFrame (Frame.pushImm 13 imm) s

/-- PUSH14 (R215). -/
def execPush14 (imm : Word) (s : State) : Result := onFrame (Frame.pushImm 14 imm) s

/-- PUSH15 (R216). -/
def execPush15 (imm : Word) (s : State) : Result := onFrame (Frame.pushImm 15 imm) s

/-- PUSH16 (R217). -/
def execPush16 (imm : Word) (s : State) : Result := onFrame (Frame.pushImm 16 imm) s

/-- PUSH17 (R218). -/
def execPush17 (imm : Word) (s : State) : Result := onFrame (Frame.pushImm 17 imm) s

/-- PUSH18 (R219). -/
def execPush18 (imm : Word) (s : State) : Result := onFrame (Frame.pushImm 18 imm) s

/-- PUSH19 (R220). -/
def execPush19 (imm : Word) (s : State) : Result := onFrame (Frame.pushImm 19 imm) s

/-- PUSH20 (R221). -/
def execPush20 (imm : Word) (s : State) : Result := onFrame (Frame.pushImm 20 imm) s

/-- PUSH21 (R222). -/
def execPush21 (imm : Word) (s : State) : Result := onFrame (Frame.pushImm 21 imm) s

/-- PUSH22 (R223). -/
def execPush22 (imm : Word) (s : State) : Result := onFrame (Frame.pushImm 22 imm) s

/-- PUSH23 (R224). -/
def execPush23 (imm : Word) (s : State) : Result := onFrame (Frame.pushImm 23 imm) s

/-- PUSH24 (R225). -/
def execPush24 (imm : Word) (s : State) : Result := onFrame (Frame.pushImm 24 imm) s

/-- PUSH25 (R226). -/
def execPush25 (imm : Word) (s : State) : Result := onFrame (Frame.pushImm 25 imm) s

/-- PUSH26 (R227). -/
def execPush26 (imm : Word) (s : State) : Result := onFrame (Frame.pushImm 26 imm) s

/-- PUSH27 (R228). -/
def execPush27 (imm : Word) (s : State) : Result := onFrame (Frame.pushImm 27 imm) s

/-- PUSH28 (R229). -/
def execPush28 (imm : Word) (s : State) : Result := onFrame (Frame.pushImm 28 imm) s

/-- PUSH29 (R230). -/
def execPush29 (imm : Word) (s : State) : Result := onFrame (Frame.pushImm 29 imm) s

/-- PUSH30 (R231). -/
def execPush30 (imm : Word) (s : State) : Result := onFrame (Frame.pushImm 30 imm) s

/-- PUSH31 (R232). -/
def execPush31 (imm : Word) (s : State) : Result := onFrame (Frame.pushImm 31 imm) s

/-- PUSH32 (R233). -/
def execPush32 (imm : Word) (s : State) : Result := onFrame (Frame.pushImm 32 imm) s

end Sys2Proof.Machine
end

