-- ==== Sys2Proof/Machine/Stack.lean ====
section
/-! DEFINITION. POP, DUP1 to DUP16 and SWAP1 to SWAP16 (41_stack_ops R155 to R191). -/

namespace Sys2Proof.Machine

/-- The body of POP (R155). -/
def Frame.drop (f : Frame) : Except FaultCategory Frame := do
  f.require 1
  let (_, f) ← f.pop
  pure f

/-- The body of DUP`n` (R156): a copy of the element `n - 1` positions below the top. -/
def Frame.dup (n : Nat) (f : Frame) : Except FaultCategory Frame := do
  f.require n
  let v ← f.peek (n - 1)
  f.push v

/-- The body of SWAP`n` (R157): the top and the element `n` positions below it change places. -/
def Frame.swap (n : Nat) (f : Frame) : Except FaultCategory Frame := do
  f.require (n + 1)
  let t ← f.peek 0
  let v ← f.peek n
  pure ((f.poke 0 v).poke n t)

/-- POP (R155). -/
def execPop (s : State) : Result := onFrame Frame.drop s

/-- DUP1 (R160). -/
def execDup1 (s : State) : Result := onFrame (Frame.dup 1) s

/-- DUP2 (R161). -/
def execDup2 (s : State) : Result := onFrame (Frame.dup 2) s

/-- DUP3 (R162). -/
def execDup3 (s : State) : Result := onFrame (Frame.dup 3) s

/-- DUP4 (R163). -/
def execDup4 (s : State) : Result := onFrame (Frame.dup 4) s

/-- DUP5 (R164). -/
def execDup5 (s : State) : Result := onFrame (Frame.dup 5) s

/-- DUP6 (R165). -/
def execDup6 (s : State) : Result := onFrame (Frame.dup 6) s

/-- DUP7 (R166). -/
def execDup7 (s : State) : Result := onFrame (Frame.dup 7) s

/-- DUP8 (R167). -/
def execDup8 (s : State) : Result := onFrame (Frame.dup 8) s

/-- DUP9 (R168). -/
def execDup9 (s : State) : Result := onFrame (Frame.dup 9) s

/-- DUP10 (R169). -/
def execDup10 (s : State) : Result := onFrame (Frame.dup 10) s

/-- DUP11 (R170). -/
def execDup11 (s : State) : Result := onFrame (Frame.dup 11) s

/-- DUP12 (R171). -/
def execDup12 (s : State) : Result := onFrame (Frame.dup 12) s

/-- DUP13 (R172). -/
def execDup13 (s : State) : Result := onFrame (Frame.dup 13) s

/-- DUP14 (R173). -/
def execDup14 (s : State) : Result := onFrame (Frame.dup 14) s

/-- DUP15 (R174). -/
def execDup15 (s : State) : Result := onFrame (Frame.dup 15) s

/-- DUP16 (R175). -/
def execDup16 (s : State) : Result := onFrame (Frame.dup 16) s

/-- SWAP1 (R176). -/
def execSwap1 (s : State) : Result := onFrame (Frame.swap 1) s

/-- SWAP2 (R177). -/
def execSwap2 (s : State) : Result := onFrame (Frame.swap 2) s

/-- SWAP3 (R178). -/
def execSwap3 (s : State) : Result := onFrame (Frame.swap 3) s

/-- SWAP4 (R179). -/
def execSwap4 (s : State) : Result := onFrame (Frame.swap 4) s

/-- SWAP5 (R180). -/
def execSwap5 (s : State) : Result := onFrame (Frame.swap 5) s

/-- SWAP6 (R181). -/
def execSwap6 (s : State) : Result := onFrame (Frame.swap 6) s

/-- SWAP7 (R182). -/
def execSwap7 (s : State) : Result := onFrame (Frame.swap 7) s

/-- SWAP8 (R183). -/
def execSwap8 (s : State) : Result := onFrame (Frame.swap 8) s

/-- SWAP9 (R184). -/
def execSwap9 (s : State) : Result := onFrame (Frame.swap 9) s

/-- SWAP10 (R185). -/
def execSwap10 (s : State) : Result := onFrame (Frame.swap 10) s

/-- SWAP11 (R186). -/
def execSwap11 (s : State) : Result := onFrame (Frame.swap 11) s

/-- SWAP12 (R187). -/
def execSwap12 (s : State) : Result := onFrame (Frame.swap 12) s

/-- SWAP13 (R188). -/
def execSwap13 (s : State) : Result := onFrame (Frame.swap 13) s

/-- SWAP14 (R189). -/
def execSwap14 (s : State) : Result := onFrame (Frame.swap 14) s

/-- SWAP15 (R190). -/
def execSwap15 (s : State) : Result := onFrame (Frame.swap 15) s

/-- SWAP16 (R191). -/
def execSwap16 (s : State) : Result := onFrame (Frame.swap 16) s

end Sys2Proof.Machine
end

