-- ==== Sys2Proof/Machine/Store.lean ====
section
/-! DEFINITION. MSTORE (43_mstore R240 to R243). -/

namespace Sys2Proof.Machine

/-- The body of MSTORE (R240): `offset` is the top, `value` the entry below it. -/
def Frame.mstore (memMax : Nat) (f : Frame) : Except FaultCategory Frame := do
  f.require 2
  let (offset, f) ← f.pop
  let (value, f) ← f.pop
  let mem ← f.mem.grow memMax (low64 offset + 32)
  pure { f with mem := mem.write (low64 offset) (be32 value) }

/-- MSTORE (R240). -/
def execMstore (s : State) : Result := onFrame (Frame.mstore s.config.memMax) s

end Sys2Proof.Machine
end

