-- ==== Sys2Proof/Syntax.lean ====
section
/-! DEFINITION. The 71 instructions of spec/opcode_table.json, one constructor each (00_scope R2, 30_encoding R98 to
R101). PUSH`N` carries its immediate already assembled and zero-extended to a Word (30_encoding R95); that it fits `N`
bytes is the well-formedness check of WellFormed.lean. No other instruction has an operand in its encoding (R96). -/

namespace Sys2Proof

/-- An instruction, one constructor per row of the opcode table. -/
inductive Instr where
  /-- STOP (44 R254): opcode byte 0x00. -/
  | stop
  /-- ADD (40 R125): opcode byte 0x01. -/
  | add
  /-- MUL (40 R126): opcode byte 0x02. -/
  | mul
  /-- SUB (40 R127): opcode byte 0x03. -/
  | sub
  /-- POP (41 R155): opcode byte 0x50. -/
  | pop
  /-- MSTORE (43 R240): opcode byte 0x52. -/
  | mstore
  /-- PUSH1 (42_push R202): opcode byte 0x60, 1 immediate byte. -/
  | push1 (imm : Word)
  /-- PUSH2 (42_push R203): opcode byte 0x61, 2 immediate bytes. -/
  | push2 (imm : Word)
  /-- PUSH3 (42_push R204): opcode byte 0x62, 3 immediate bytes. -/
  | push3 (imm : Word)
  /-- PUSH4 (42_push R205): opcode byte 0x63, 4 immediate bytes. -/
  | push4 (imm : Word)
  /-- PUSH5 (42_push R206): opcode byte 0x64, 5 immediate bytes. -/
  | push5 (imm : Word)
  /-- PUSH6 (42_push R207): opcode byte 0x65, 6 immediate bytes. -/
  | push6 (imm : Word)
  /-- PUSH7 (42_push R208): opcode byte 0x66, 7 immediate bytes. -/
  | push7 (imm : Word)
  /-- PUSH8 (42_push R209): opcode byte 0x67, 8 immediate bytes. -/
  | push8 (imm : Word)
  /-- PUSH9 (42_push R210): opcode byte 0x68, 9 immediate bytes. -/
  | push9 (imm : Word)
  /-- PUSH10 (42_push R211): opcode byte 0x69, 10 immediate bytes. -/
  | push10 (imm : Word)
  /-- PUSH11 (42_push R212): opcode byte 0x6A, 11 immediate bytes. -/
  | push11 (imm : Word)
  /-- PUSH12 (42_push R213): opcode byte 0x6B, 12 immediate bytes. -/
  | push12 (imm : Word)
  /-- PUSH13 (42_push R214): opcode byte 0x6C, 13 immediate bytes. -/
  | push13 (imm : Word)
  /-- PUSH14 (42_push R215): opcode byte 0x6D, 14 immediate bytes. -/
  | push14 (imm : Word)
  /-- PUSH15 (42_push R216): opcode byte 0x6E, 15 immediate bytes. -/
  | push15 (imm : Word)
  /-- PUSH16 (42_push R217): opcode byte 0x6F, 16 immediate bytes. -/
  | push16 (imm : Word)
  /-- PUSH17 (42_push R218): opcode byte 0x70, 17 immediate bytes. -/
  | push17 (imm : Word)
  /-- PUSH18 (42_push R219): opcode byte 0x71, 18 immediate bytes. -/
  | push18 (imm : Word)
  /-- PUSH19 (42_push R220): opcode byte 0x72, 19 immediate bytes. -/
  | push19 (imm : Word)
  /-- PUSH20 (42_push R221): opcode byte 0x73, 20 immediate bytes. -/
  | push20 (imm : Word)
  /-- PUSH21 (42_push R222): opcode byte 0x74, 21 immediate bytes. -/
  | push21 (imm : Word)
  /-- PUSH22 (42_push R223): opcode byte 0x75, 22 immediate bytes. -/
  | push22 (imm : Word)
  /-- PUSH23 (42_push R224): opcode byte 0x76, 23 immediate bytes. -/
  | push23 (imm : Word)
  /-- PUSH24 (42_push R225): opcode byte 0x77, 24 immediate bytes. -/
  | push24 (imm : Word)
  /-- PUSH25 (42_push R226): opcode byte 0x78, 25 immediate bytes. -/
  | push25 (imm : Word)
  /-- PUSH26 (42_push R227): opcode byte 0x79, 26 immediate bytes. -/
  | push26 (imm : Word)
  /-- PUSH27 (42_push R228): opcode byte 0x7A, 27 immediate bytes. -/
  | push27 (imm : Word)
  /-- PUSH28 (42_push R229): opcode byte 0x7B, 28 immediate bytes. -/
  | push28 (imm : Word)
  /-- PUSH29 (42_push R230): opcode byte 0x7C, 29 immediate bytes. -/
  | push29 (imm : Word)
  /-- PUSH30 (42_push R231): opcode byte 0x7D, 30 immediate bytes. -/
  | push30 (imm : Word)
  /-- PUSH31 (42_push R232): opcode byte 0x7E, 31 immediate bytes. -/
  | push31 (imm : Word)
  /-- PUSH32 (42_push R233): opcode byte 0x7F, 32 immediate bytes. -/
  | push32 (imm : Word)
  /-- DUP1 (41_stack_ops R160): opcode byte 0x80. -/
  | dup1
  /-- DUP2 (41_stack_ops R161): opcode byte 0x81. -/
  | dup2
  /-- DUP3 (41_stack_ops R162): opcode byte 0x82. -/
  | dup3
  /-- DUP4 (41_stack_ops R163): opcode byte 0x83. -/
  | dup4
  /-- DUP5 (41_stack_ops R164): opcode byte 0x84. -/
  | dup5
  /-- DUP6 (41_stack_ops R165): opcode byte 0x85. -/
  | dup6
  /-- DUP7 (41_stack_ops R166): opcode byte 0x86. -/
  | dup7
  /-- DUP8 (41_stack_ops R167): opcode byte 0x87. -/
  | dup8
  /-- DUP9 (41_stack_ops R168): opcode byte 0x88. -/
  | dup9
  /-- DUP10 (41_stack_ops R169): opcode byte 0x89. -/
  | dup10
  /-- DUP11 (41_stack_ops R170): opcode byte 0x8A. -/
  | dup11
  /-- DUP12 (41_stack_ops R171): opcode byte 0x8B. -/
  | dup12
  /-- DUP13 (41_stack_ops R172): opcode byte 0x8C. -/
  | dup13
  /-- DUP14 (41_stack_ops R173): opcode byte 0x8D. -/
  | dup14
  /-- DUP15 (41_stack_ops R174): opcode byte 0x8E. -/
  | dup15
  /-- DUP16 (41_stack_ops R175): opcode byte 0x8F. -/
  | dup16
  /-- SWAP1 (41_stack_ops R176): opcode byte 0x90. -/
  | swap1
  /-- SWAP2 (41_stack_ops R177): opcode byte 0x91. -/
  | swap2
  /-- SWAP3 (41_stack_ops R178): opcode byte 0x92. -/
  | swap3
  /-- SWAP4 (41_stack_ops R179): opcode byte 0x93. -/
  | swap4
  /-- SWAP5 (41_stack_ops R180): opcode byte 0x94. -/
  | swap5
  /-- SWAP6 (41_stack_ops R181): opcode byte 0x95. -/
  | swap6
  /-- SWAP7 (41_stack_ops R182): opcode byte 0x96. -/
  | swap7
  /-- SWAP8 (41_stack_ops R183): opcode byte 0x97. -/
  | swap8
  /-- SWAP9 (41_stack_ops R184): opcode byte 0x98. -/
  | swap9
  /-- SWAP10 (41_stack_ops R185): opcode byte 0x99. -/
  | swap10
  /-- SWAP11 (41_stack_ops R186): opcode byte 0x9A. -/
  | swap11
  /-- SWAP12 (41_stack_ops R187): opcode byte 0x9B. -/
  | swap12
  /-- SWAP13 (41_stack_ops R188): opcode byte 0x9C. -/
  | swap13
  /-- SWAP14 (41_stack_ops R189): opcode byte 0x9D. -/
  | swap14
  /-- SWAP15 (41_stack_ops R190): opcode byte 0x9E. -/
  | swap15
  /-- SWAP16 (41_stack_ops R191): opcode byte 0x9F. -/
  | swap16
  /-- RETURN (44 R256): opcode byte 0xF3. -/
  | ret
  deriving DecidableEq, Repr

end Sys2Proof
end

