-- ==== Sys2Proof/WellFormed.lean ====
section
/-! DEFINITION. Well-formed instructions: the immediate of PUSH`N` is a value of `N` bytes (42_push R201(c), 30_encoding
R108: a numeral whose value needs more than `N` bytes is an error of the listing). Every other instruction is
well-formed, since its encoding has no operand (30_encoding R96). -/

namespace Sys2Proof

/-- `v` is a value of `n` bytes: `v < 2^(8n)` (42_push R201(c)). -/
def fitsBytes (n : Nat) (v : Word) : Bool := decide (v.toNat < 2 ^ (8 * n))

/-- The well-formedness check of an instruction. -/
def Instr.wellFormed : Instr → Bool
  | .stop => true
  | .add => true
  | .mul => true
  | .sub => true
  | .pop => true
  | .mstore => true
  | .push1 imm => fitsBytes 1 imm
  | .push2 imm => fitsBytes 2 imm
  | .push3 imm => fitsBytes 3 imm
  | .push4 imm => fitsBytes 4 imm
  | .push5 imm => fitsBytes 5 imm
  | .push6 imm => fitsBytes 6 imm
  | .push7 imm => fitsBytes 7 imm
  | .push8 imm => fitsBytes 8 imm
  | .push9 imm => fitsBytes 9 imm
  | .push10 imm => fitsBytes 10 imm
  | .push11 imm => fitsBytes 11 imm
  | .push12 imm => fitsBytes 12 imm
  | .push13 imm => fitsBytes 13 imm
  | .push14 imm => fitsBytes 14 imm
  | .push15 imm => fitsBytes 15 imm
  | .push16 imm => fitsBytes 16 imm
  | .push17 imm => fitsBytes 17 imm
  | .push18 imm => fitsBytes 18 imm
  | .push19 imm => fitsBytes 19 imm
  | .push20 imm => fitsBytes 20 imm
  | .push21 imm => fitsBytes 21 imm
  | .push22 imm => fitsBytes 22 imm
  | .push23 imm => fitsBytes 23 imm
  | .push24 imm => fitsBytes 24 imm
  | .push25 imm => fitsBytes 25 imm
  | .push26 imm => fitsBytes 26 imm
  | .push27 imm => fitsBytes 27 imm
  | .push28 imm => fitsBytes 28 imm
  | .push29 imm => fitsBytes 29 imm
  | .push30 imm => fitsBytes 30 imm
  | .push31 imm => fitsBytes 31 imm
  | .push32 imm => fitsBytes 32 imm
  | .dup1 => true
  | .dup2 => true
  | .dup3 => true
  | .dup4 => true
  | .dup5 => true
  | .dup6 => true
  | .dup7 => true
  | .dup8 => true
  | .dup9 => true
  | .dup10 => true
  | .dup11 => true
  | .dup12 => true
  | .dup13 => true
  | .dup14 => true
  | .dup15 => true
  | .dup16 => true
  | .swap1 => true
  | .swap2 => true
  | .swap3 => true
  | .swap4 => true
  | .swap5 => true
  | .swap6 => true
  | .swap7 => true
  | .swap8 => true
  | .swap9 => true
  | .swap10 => true
  | .swap11 => true
  | .swap12 => true
  | .swap13 => true
  | .swap14 => true
  | .swap15 => true
  | .swap16 => true
  | .ret => true

end Sys2Proof
end

