-- ==== Sys2Proof/Decode.lean ====
section
/-! DEFINITION. The decoder of 30_encoding, total on any bytes, and after it the encoder, the disassembler of R111 and the
host's reading of an opcode-table word. Decoding depends on the opcode byte alone (R93, R107); the seven single opcode
bytes stand in one table of named constants (R98, 93 G1). -/

namespace Sys2Proof

/-! The seven single opcodes. PRESUMED (log 4, unsafe): the source prints no byte for them; the spec supplies the values of
the standard EVM opcode table, to which R97 binds the hardware (30_encoding R98, 93 G1). -/

/-- STOP (30_encoding R98). -/
def opStop : Byte := 0x00#8
/-- ADD (30_encoding R98). -/
def opAdd : Byte := 0x01#8
/-- MUL (30_encoding R98). -/
def opMul : Byte := 0x02#8
/-- SUB (30_encoding R98). -/
def opSub : Byte := 0x03#8
/-- POP (30_encoding R98). -/
def opPop : Byte := 0x50#8
/-- MSTORE (30_encoding R98). -/
def opMstore : Byte := 0x52#8
/-- RETURN (30_encoding R98). -/
def opReturn : Byte := 0xF3#8

/-- PUSH`N` at index `N - 1` (30_encoding R99). -/
def pushTable : List (Word → Instr) :=
    [.push1, .push2, .push3, .push4, .push5, .push6, .push7, .push8] ++
    [.push9, .push10, .push11, .push12, .push13, .push14, .push15, .push16] ++
    [.push17, .push18, .push19, .push20, .push21, .push22, .push23, .push24] ++
    [.push25, .push26, .push27, .push28, .push29, .push30, .push31, .push32]

/-- DUP`N` at index `N - 1` (30_encoding R100). -/
def dupTable : List Instr :=
    [.dup1, .dup2, .dup3, .dup4, .dup5, .dup6, .dup7, .dup8] ++
    [.dup9, .dup10, .dup11, .dup12, .dup13, .dup14, .dup15, .dup16]

/-- SWAP`N` at index `N - 1` (30_encoding R101). -/
def swapTable : List Instr :=
    [.swap1, .swap2, .swap3, .swap4, .swap5, .swap6, .swap7, .swap8] ++
    [.swap9, .swap10, .swap11, .swap12, .swap13, .swap14, .swap15, .swap16]

/-- What the decoder makes of the bytes from one instruction start on (30_encoding R103: every byte value has exactly one
outcome). -/
inductive Decoded where
  /-- The instruction and the bytes after it. -/
  | instr (i : Instr) (rest : List Byte)
  /-- PUSH`n` with fewer than `n` bytes after its opcode byte (R106). -/
  | truncated (n : Nat)
  /-- An opcode byte that no instruction has (R104). -/
  | unsupported (op : Byte)
  /-- There is no opcode byte. -/
  | endOfBytes
  deriving DecidableEq, Repr

/-- PUSH`n`: its `n` immediate bytes follow the opcode byte, most significant first (30_encoding R92, R95, R106). -/
def decodePush (n : Nat) (op : Byte) (rest : List Byte) : Decoded :=
  if rest.length < n then .truncated n
  else match pushTable[n - 1]? with
    | some mk => .instr (mk (Machine.beWord (rest.take n))) (rest.drop n)
    | none => .unsupported op

/-- A one-byte instruction of a family, from its table (30_encoding R91). -/
def decodeRow (table : List Instr) (n : Nat) (op : Byte) (rest : List Byte) : Decoded :=
  match table[n - 1]? with
  | some i => .instr i rest
  | none => .unsupported op

/-- The three ranges of opcode bytes (30_encoding R99 to R101), and every other byte unsupported (R104). -/
def decodeFamily (op : Byte) (rest : List Byte) : Decoded :=
  if 0x60 ≤ op.toNat ∧ op.toNat ≤ 0x7F then decodePush (op.toNat - 0x5F) op rest
  else if 0x80 ≤ op.toNat ∧ op.toNat ≤ 0x8F then decodeRow dupTable (op.toNat - 0x7F) op rest
  else if 0x90 ≤ op.toNat ∧ op.toNat ≤ 0x9F then decodeRow swapTable (op.toNat - 0x8F) op rest
  else .unsupported op

/-- The decoder: the selection of 44_control_and_loop R251, by the opcode byte alone. -/
def decode : List Byte → Decoded
  | [] => .endOfBytes
  | op :: rest =>
    if op = opStop then .instr .stop rest
    else if op = opAdd then .instr .add rest
    else if op = opMul then .instr .mul rest
    else if op = opSub then .instr .sub rest
    else if op = opPop then .instr .pop rest
    else if op = opMstore then .instr .mstore rest
    else if op = opReturn then .instr .ret rest
    else decodeFamily op rest

/-- The length of an instruction in bytes, told from the opcode byte alone (30_encoding R93). -/
def opcodeLength (op : Byte) : Nat :=
  if 0x60 ≤ op.toNat ∧ op.toNat ≤ 0x7F then 1 + (op.toNat - 0x5F) else 1

/-- The encoder: the bytes of an instruction (30_encoding R91, R92, R98 to R101). -/
def encode : Instr → List Byte
  | .stop => [opStop]
  | .add => [opAdd]
  | .mul => [opMul]
  | .sub => [opSub]
  | .pop => [opPop]
  | .mstore => [opMstore]
  | .push1 imm => 0x60#8 :: Machine.beBytes 1 imm
  | .push2 imm => 0x61#8 :: Machine.beBytes 2 imm
  | .push3 imm => 0x62#8 :: Machine.beBytes 3 imm
  | .push4 imm => 0x63#8 :: Machine.beBytes 4 imm
  | .push5 imm => 0x64#8 :: Machine.beBytes 5 imm
  | .push6 imm => 0x65#8 :: Machine.beBytes 6 imm
  | .push7 imm => 0x66#8 :: Machine.beBytes 7 imm
  | .push8 imm => 0x67#8 :: Machine.beBytes 8 imm
  | .push9 imm => 0x68#8 :: Machine.beBytes 9 imm
  | .push10 imm => 0x69#8 :: Machine.beBytes 10 imm
  | .push11 imm => 0x6A#8 :: Machine.beBytes 11 imm
  | .push12 imm => 0x6B#8 :: Machine.beBytes 12 imm
  | .push13 imm => 0x6C#8 :: Machine.beBytes 13 imm
  | .push14 imm => 0x6D#8 :: Machine.beBytes 14 imm
  | .push15 imm => 0x6E#8 :: Machine.beBytes 15 imm
  | .push16 imm => 0x6F#8 :: Machine.beBytes 16 imm
  | .push17 imm => 0x70#8 :: Machine.beBytes 17 imm
  | .push18 imm => 0x71#8 :: Machine.beBytes 18 imm
  | .push19 imm => 0x72#8 :: Machine.beBytes 19 imm
  | .push20 imm => 0x73#8 :: Machine.beBytes 20 imm
  | .push21 imm => 0x74#8 :: Machine.beBytes 21 imm
  | .push22 imm => 0x75#8 :: Machine.beBytes 22 imm
  | .push23 imm => 0x76#8 :: Machine.beBytes 23 imm
  | .push24 imm => 0x77#8 :: Machine.beBytes 24 imm
  | .push25 imm => 0x78#8 :: Machine.beBytes 25 imm
  | .push26 imm => 0x79#8 :: Machine.beBytes 26 imm
  | .push27 imm => 0x7A#8 :: Machine.beBytes 27 imm
  | .push28 imm => 0x7B#8 :: Machine.beBytes 28 imm
  | .push29 imm => 0x7C#8 :: Machine.beBytes 29 imm
  | .push30 imm => 0x7D#8 :: Machine.beBytes 30 imm
  | .push31 imm => 0x7E#8 :: Machine.beBytes 31 imm
  | .push32 imm => 0x7F#8 :: Machine.beBytes 32 imm
  | .dup1 => [0x80#8]
  | .dup2 => [0x81#8]
  | .dup3 => [0x82#8]
  | .dup4 => [0x83#8]
  | .dup5 => [0x84#8]
  | .dup6 => [0x85#8]
  | .dup7 => [0x86#8]
  | .dup8 => [0x87#8]
  | .dup9 => [0x88#8]
  | .dup10 => [0x89#8]
  | .dup11 => [0x8A#8]
  | .dup12 => [0x8B#8]
  | .dup13 => [0x8C#8]
  | .dup14 => [0x8D#8]
  | .dup15 => [0x8E#8]
  | .dup16 => [0x8F#8]
  | .swap1 => [0x90#8]
  | .swap2 => [0x91#8]
  | .swap3 => [0x92#8]
  | .swap4 => [0x93#8]
  | .swap5 => [0x94#8]
  | .swap6 => [0x95#8]
  | .swap7 => [0x96#8]
  | .swap8 => [0x97#8]
  | .swap9 => [0x98#8]
  | .swap10 => [0x99#8]
  | .swap11 => [0x9A#8]
  | .swap12 => [0x9B#8]
  | .swap13 => [0x9C#8]
  | .swap14 => [0x9D#8]
  | .swap15 => [0x9E#8]
  | .swap16 => [0x9F#8]
  | .ret => [opReturn]

/-- A listing's bytes: the instructions one after another, no padding (30_encoding R90, R109). -/
def assemble (listing : List Instr) : List Byte := listing.flatMap encode

/-- The walk of `disassemble`, with at most `fuel` instructions. -/
def disassembleUpTo : Nat → List Byte → Option (List Instr)
  | _, [] => some []
  | 0, _ :: _ => none
  | fuel + 1, op :: rest =>
    match decode (op :: rest) with
    | .instr i after => (disassembleUpTo fuel after).map (i :: ·)
    | _ => none

/-- The disassembler of 30_encoding R111: it walks the buffer from offset 0 by instruction lengths; a buffer with an
unsupported byte at an instruction start or a truncated last PUSH has no complete listing. -/
def disassemble (bytes : List Byte) : Option (List Instr) := disassembleUpTo bytes.length bytes

/-- The longest instruction, PUSH32, in bytes (30_encoding R90). -/
def maxInstrBytes : Nat := 33

/-- The instruction whose bits are `w`, numbered as spec/opcode_table.json numbers them (the first byte is bits 7..0, the
second bits 15..8), laid out as the hardware stores it and filled with zero bytes up to the longest instruction. -/
def tableBytes (nbits w : Nat) : List Byte :=
  (List.range maxInstrBytes).map fun j => if 8 * j < nbits then BitVec.ofNat 8 (w / 256 ^ j) else 0#8

/-- The instruction the decoder reads from an opcode-table word, none where it reads none. -/
def decodeTableWord (nbits w : Nat) : Option Instr :=
  match decode (tableBytes nbits w) with
  | .instr i _ => some i
  | _ => none

end Sys2Proof
end

