-- ==== Sys2Proof/Machine/Fetch.lean ====
section
/-! DEFINITION. Instruction fetch (20_memory R61, R64, 44 R250), and the placing of an opcode-table word where the next step
fetches its instruction. -/

namespace Sys2Proof.Machine

/-- The code bytes from `pc` on: none at or beyond `code_end` is ever read (20_memory R61). -/
def Frame.codeAhead (f : Frame) : List Byte := (f.code.take f.codeEnd).drop f.pc

/-- The instruction at `pc`, as the decoder reads it (44 R250, R251). -/
def Frame.fetch (f : Frame) : Decoded := decode f.codeAhead

/-- The frame after the fetch of one opcode byte: `pc <- pc + 1` (44 R250). -/
def Frame.afterFetch (f : Frame) : Frame := { f with pc := f.pc + 1 }

/-- Code bytes written over a buffer from offset `at` on, the buffer filled with zero bytes up to there. -/
def overwriteCode (code : List Byte) (at' : Nat) (bytes : List Byte) : List Byte :=
  (code ++ List.replicate (at' - code.length) 0#8).take at' ++ bytes ++ code.drop (at' + bytes.length)

/-- `s` with `bytes` where the next step fetches its instruction. With a current frame they go into its code buffer at its
`pc`; with none, a frame whose code they are is put on the chain, as `allocate_frame` does (45 R281). Either way the loop is
started, as `interpret` does: Running, no fault (45 R285; log 6). -/
def placeCode (s : State) (bytes : List Byte) : State :=
  match s.frame? with
  | some f =>
    let code := overwriteCode f.code f.pc bytes
    { s.setFrame { f with code := code, codeEnd := code.length } with run := .running, fault := none }
  | none =>
    { s with chain := s.chain ++ [Frame.fresh bytes 0 s.cur], cur := some s.chain.length, run := .running, fault := none }

end Sys2Proof.Machine
end

