-- ==== Sys2Proof/Machine/Loop.lean ====
section
/-! DEFINITION. The fetch-decode-execute loop (44_control_and_loop R250 to R253, R257). -/

namespace Sys2Proof.Machine

/-- A pass through the running loop with the current frame `f` (44 R250): the end of the code is an implicit STOP (R252);
else the opcode byte is fetched, `pc` advances by 1, and the instruction runs. A byte without a handler faults (R257), and so
does a PUSH whose immediate is cut off, which is decoded as PUSH`N` (30_encoding R106, 42_push R200). -/
def loopPass (s : State) (f : Frame) : Result :=
  if f.pc = f.codeEnd then .next (s.retire f)
  else
    match f.fetch with
    | .instr i _ => exec i (s.setFrame f.afterFetch)
    | .truncated _ => .next ((s.setFrame f.afterFetch).raise .truncatedImmediate)
    | .unsupported _ => .next ((s.setFrame f.afterFetch).raise .unsupportedOpcode)
    | .endOfBytes => .fault .codeUnreadable

/-- One step of the machine. While Halted the core waits for the host and a step changes nothing (60_exceptions R335,
log 14). -/
def loopStep (s : State) : Result :=
  match s.run with
  | .halted => .next s
  | .running =>
    match s.frame? with
    | none => .fault .noCurrentFrame
    | some f => loopPass s f

end Sys2Proof.Machine
end

