-- ==== Sys2Proof/Machine/Step.lean ====
section
/-! DEFINITION. The step of the machine (44_control_and_loop R250), and the host's way to run one opcode-table word. -/

namespace Sys2Proof.Machine

/-- One step (44 R250). -/
def step (s : State) : Host.Outcome State Fault Refusal := loopStep s

/-- `s` with an opcode-table word placed so that the very next step fetches and runs exactly it (log 6). -/
def State.withFetchWord (s : State) (nbits w : Nat) : State := placeCode s (tableBytes nbits w)

end Sys2Proof.Machine
end

