-- ==== Sys2Proof/Machine/Flags.lean ====
section
/-! DEFINITION. There are no flags and no condition codes: the carry of `add`, the borrow of `sub` and the high half of the
product of `mul` are discarded inside the MAU (10_state R40). What the hardware has instead are two status registers,
`run` and `fault`, whose encodings stand here (10_state R34, R39, 60_exceptions R300). -/

namespace Sys2Proof.Machine

/-- `run` as the host reads it: 0 Halted, 1 Running (10_state R39). -/
def RunState.code : RunState → BitVec 1
  | .halted => 0#1
  | .running => 1#1

/-- The code of a fault category (60_exceptions R300). -/
def FaultCategory.code : FaultCategory → BitVec 3
  | .stackUnderflow => 1#3
  | .stackOverflow => 2#3
  | .truncatedImmediate => 3#3
  | .unsupportedOpcode => 4#3
  | .memoryLimit => 5#3

/-- The fault register as the host reads it: 0 for None, else the category's code (10_state R34). -/
def faultCode : Option FaultCategory → BitVec 3
  | none => 0#3
  | some c => c.code

end Sys2Proof.Machine
end

