-- ==== Sys2Proof/Machine/HostOps.lean ====
section
/-! DEFINITION. The host's operations on the core (45_frame_chaining R280 to R291, 70_reset R340 to R344). They are not
instructions and no step performs one: each is one atomic transaction between two interpretations (log 6). A refused
operation changes nothing and reports failure (45 R291, 92 D10); that the report carries a reason is the model's choice
(log 15). -/

namespace Sys2Proof.Machine

/-- An operation with what the host hands over (45 R291). -/
inductive HostOp where
  | reset
  | setHandles (moduleHandle stackMgr : Handle)
  | allocateFrame (code : List Byte) (gas : Nat)
  | freeFrame (f : FrameRef)
  | interpret
  | readReturnData
  | readStatus
  deriving DecidableEq, Repr

/-- Why an operation is refused. DESIGN CHOICE (log 15, unsafe for a claim about the reason): 45 R291 says only that a refusal
"reports failure"; the model reports the first condition that fails, in the order of the checks of each operation. -/
inductive HostRefusal where
  /-- Only while Halted (45 R282(a), R284, R291). -/
  | notHalted
  /-- `nframes = MAX_FRAMES` (45 R282(b)). -/
  | chainFull
  /-- `len(code_bytes) > CODE_MAX` (45 R282(b)). -/
  | codeTooLong
  /-- The gas value is no GAS_BITS-bit value (10_state R30; DESIGN CHOICE, log 11). -/
  | gasTooWide
  /-- The designated frame is not the current one (45 R284). -/
  | notCurrent
  /-- There is no current frame to interpret (45 R286). -/
  | noFrame
  deriving DecidableEq, Repr

/-- What the host gets back (45 R291). -/
inductive HostReply where
  | done
  | frame (designator : FrameRef)
  /-- `interpret` has returned, with the fault register (None: a normal end). -/
  | ended (fault : Option FaultCategory)
  | returnData (bytes : Memory)
  | status (run : RunState) (fault : Option FaultCategory)
  | refused (why : HostRefusal)
  deriving DecidableEq, Repr

/-- Reset (70_reset R340, R341): at any time, also between two steps of a run. The handles, unspecified after it, have
the values of `State.reset` (log 3); the parameters stay. -/
def hostReset (s : State) : State × HostReply :=
  ({ State.reset with config := s.config }, .done)

/-- `set_handles` (45 R290). -/
def hostSetHandles (moduleHandle stackMgr : Handle) (s : State) : State × HostReply :=
  match s.run with
  | .running => (s, .refused .notHalted)
  | .halted => ({ s with moduleHandle := moduleHandle, stackMgr := stackMgr }, .done)

/-- `allocate_frame` (45 R281, R282). Where several conditions fail the reason is the first of notHalted, chainFull,
codeTooLong, gasTooWide (DESIGN CHOICE, log 15). -/
def hostAllocateFrame (code : List Byte) (gas : Nat) (s : State) : State × HostReply :=
  match s.run with
  | .running => (s, .refused .notHalted)
  | .halted =>
    if s.config.maxFrames ≤ s.nframes then (s, .refused .chainFull)
    else if s.config.codeMax < code.length then (s, .refused .codeTooLong)
    else if 2 ^ s.config.gasBits ≤ gas then (s, .refused .gasTooWide)
    else ({ s with chain := s.chain ++ [Frame.fresh code gas s.cur], cur := some s.nframes }, .frame s.nframes)

/-- `free_frame` (45 R283, R284): only the current frame, only while Halted; notHalted is reported before notCurrent
(DESIGN CHOICE, log 15). -/
def hostFreeFrame (d : FrameRef) (s : State) : State × HostReply :=
  match s.run with
  | .running => (s, .refused .notHalted)
  | .halted =>
    if s.cur = some d then
      match s.frame? with
      | none => (s, .refused .notCurrent)
      | some f => (s.release f, .done)
    else (s, .refused .notCurrent)

/-- `read_return_data` (45 R287). -/
def hostReadReturnData (s : State) : State × HostReply :=
  match s.run with
  | .running => (s, .refused .notHalted)
  | .halted => (s, .returnData s.retdata)

/-- `read_status` (45 R288). -/
def hostReadStatus (s : State) : State × HostReply :=
  match s.run with
  | .running => (s, .refused .notHalted)
  | .halted => (s, .status s.run s.fault)

/-- The start of `interpret` (45 R285): `fault <- None`, `run <- Running`. -/
def State.startLoop (s : State) : State := { s with fault := none, run := .running }

/-- `while run = Running: step`, for at most `fuel` steps (45 R285). -/
def runLoop : Nat → State → Result
  | 0, s => .next s
  | fuel + 1, s =>
    match s.run with
    | .halted => .next s
    | .running =>
      match step s with
      | .next t => runLoop fuel t
      | .fault r => .fault r
      | .refused r => .refused r

/-- The greatest number of steps of an interpretation: the sum of `code_end + 1` over the frames of the chain
(44 R261; log 13). -/
def State.stepBound (s : State) : Nat := (s.chain.map fun f => f.codeEnd + 1).sum

/-- `interpret` (45 R285, R286): the loop runs to its end before the operation returns; notHalted is reported before noFrame
(DESIGN CHOICE, log 15). -/
def hostInterpret (s : State) : Host.Outcome (State × HostReply) Fault Refusal :=
  match s.run with
  | .running => .next (s, .refused .notHalted)
  | .halted =>
    match s.cur with
    | none => .next (s, .refused .noFrame)
    | some _ =>
      match runLoop s.stepBound s.startLoop with
      | .next t => .next (t, .ended t.fault)
      | .fault r => .fault r
      | .refused r => .refused r

/-- The host's operations (45 R291). -/
def hostStep (op : HostOp) (s : State) : Host.Outcome (State × HostReply) Fault Refusal :=
  match op with
  | .reset => .next (hostReset s)
  | .setHandles m k => .next (hostSetHandles m k s)
  | .allocateFrame code gas => .next (hostAllocateFrame code gas s)
  | .freeFrame d => .next (hostFreeFrame d s)
  | .interpret => hostInterpret s
  | .readReturnData => .next (hostReadReturnData s)
  | .readStatus => .next (hostReadStatus s)

end Sys2Proof.Machine
end

