-- ==== Sys2Proof/Safety.lean ====
section
/-! DEFINITION. The terms the statements use: the invariant of the machine (10_state R23, R24, R32, R33), the families of
the opcode table, and the table of which instruction faults when (60_exceptions R307, R308). -/

namespace Sys2Proof.Machine

/-! ### The invariant -/

/-- The designator of the last of `n` frames, none for no frame (10_state R23, R24). -/
def lastRef : Nat → Option Nat
  | 0 => none
  | n + 1 => some n

/-- What holds of every frame (10_state R25 to R32): the depth, the program counter inside the code, `code_end` the length of
the code (R29), the capacities of R7, the canonical memory, the width of the gas value. -/
abbrev Frame.Inv (c : Config) (f : Frame) : Prop :=
  f.depth ≤ stackMax ∧ f.pc ≤ f.codeEnd ∧ f.codeEnd = f.code.length ∧ f.codeEnd ≤ c.codeMax ∧
    f.mem.wf ∧ f.mem.len ≤ c.memMax ∧ f.gasLeft < 2 ^ c.gasBits

/-- `f_0` has no caller, and `f_i.caller` designates `f_(i-1)` (10_state R23). -/
abbrev Linked (chain : List Frame) : Prop :=
  ∀ i, ∀ h : i < chain.length, (chain[i]'h).caller = lastRef i

/-- The invariant of the machine. The last two clauses are 10_state R33 (while Running there is a current frame) and R34
(`interpret` clears the fault register, and a fault halts). -/
abbrev State.Inv (s : State) : Prop :=
  s.config.wf ∧ s.nframes ≤ s.config.maxFrames ∧ s.cur = lastRef s.nframes ∧ Linked s.chain ∧
    (∀ f ∈ s.chain, f.Inv s.config) ∧ s.retdata.wf ∧ s.retdata.len ≤ s.config.memMax ∧
    (s.run = .running → s.cur ≠ none) ∧ (s.run = .running → s.fault = none)

/-- `f` is the current frame of `s`, at position `i` of the chain (10_state R24). -/
abbrev State.Current (s : State) (i : Nat) (f : Frame) : Prop := s.cur = some i ∧ s.chain[i]? = some f

/-! ### The families of the opcode table -/

/-- PUSH1 to PUSH32 with their `N` (30_encoding R99). -/
def pushFamily : List (Nat × (Word → Instr)) :=
    [(1, .push1), (2, .push2), (3, .push3), (4, .push4), (5, .push5), (6, .push6), (7, .push7), (8, .push8)] ++
    [(9, .push9), (10, .push10), (11, .push11), (12, .push12), (13, .push13), (14, .push14), (15, .push15), (16, .push16)] ++
    [(17, .push17), (18, .push18), (19, .push19), (20, .push20), (21, .push21), (22, .push22), (23, .push23), (24, .push24)] ++
    [(25, .push25), (26, .push26), (27, .push27), (28, .push28), (29, .push29), (30, .push30), (31, .push31), (32, .push32)]

/-- DUP1 to DUP16 with their `N` (30_encoding R100). -/
def dupFamily : List (Nat × Instr) :=
    [(1, .dup1), (2, .dup2), (3, .dup3), (4, .dup4), (5, .dup5), (6, .dup6), (7, .dup7), (8, .dup8)] ++
    [(9, .dup9), (10, .dup10), (11, .dup11), (12, .dup12), (13, .dup13), (14, .dup14), (15, .dup15), (16, .dup16)]

/-- SWAP1 to SWAP16 with their `N` (30_encoding R101). -/
def swapFamily : List (Nat × Instr) :=
    [(1, .swap1), (2, .swap2), (3, .swap3), (4, .swap4), (5, .swap5), (6, .swap6), (7, .swap7), (8, .swap8)] ++
    [(9, .swap9), (10, .swap10), (11, .swap11), (12, .swap12), (13, .swap13), (14, .swap14), (15, .swap15), (16, .swap16)]

/-- The opcode byte values that are not one of the 71 (30_encoding R104). -/
abbrev UnsupportedByte (v : Nat) : Prop :=
  (0x04 ≤ v ∧ v ≤ 0x4F) ∨ v = 0x51 ∨ (0x53 ≤ v ∧ v ≤ 0x5F) ∨ (0xA0 ≤ v ∧ v ≤ 0xF2) ∨ (0xF4 ≤ v ∧ v ≤ 0xFF)

/-! ### When an instruction faults -/

/-- How many stack entries an instruction requires (60_exceptions R301). -/
def operandsNeeded : Instr → Nat
  | .stop => 0
  | .add => 2
  | .mul => 2
  | .sub => 2
  | .pop => 1
  | .mstore => 2
  | .push1 _ => 0
  | .push2 _ => 0
  | .push3 _ => 0
  | .push4 _ => 0
  | .push5 _ => 0
  | .push6 _ => 0
  | .push7 _ => 0
  | .push8 _ => 0
  | .push9 _ => 0
  | .push10 _ => 0
  | .push11 _ => 0
  | .push12 _ => 0
  | .push13 _ => 0
  | .push14 _ => 0
  | .push15 _ => 0
  | .push16 _ => 0
  | .push17 _ => 0
  | .push18 _ => 0
  | .push19 _ => 0
  | .push20 _ => 0
  | .push21 _ => 0
  | .push22 _ => 0
  | .push23 _ => 0
  | .push24 _ => 0
  | .push25 _ => 0
  | .push26 _ => 0
  | .push27 _ => 0
  | .push28 _ => 0
  | .push29 _ => 0
  | .push30 _ => 0
  | .push31 _ => 0
  | .push32 _ => 0
  | .dup1 => 1
  | .dup2 => 2
  | .dup3 => 3
  | .dup4 => 4
  | .dup5 => 5
  | .dup6 => 6
  | .dup7 => 7
  | .dup8 => 8
  | .dup9 => 9
  | .dup10 => 10
  | .dup11 => 11
  | .dup12 => 12
  | .dup13 => 13
  | .dup14 => 14
  | .dup15 => 15
  | .dup16 => 16
  | .swap1 => 2
  | .swap2 => 3
  | .swap3 => 4
  | .swap4 => 5
  | .swap5 => 6
  | .swap6 => 7
  | .swap7 => 8
  | .swap8 => 9
  | .swap9 => 10
  | .swap10 => 11
  | .swap11 => 12
  | .swap12 => 13
  | .swap13 => 14
  | .swap14 => 15
  | .swap15 => 16
  | .swap16 => 17
  | .ret => 2

/-- How many immediate bytes follow the opcode byte (30_encoding R92). -/
def immediateBytes : Instr → Nat
  | .stop => 0
  | .add => 0
  | .mul => 0
  | .sub => 0
  | .pop => 0
  | .mstore => 0
  | .push1 _ => 1
  | .push2 _ => 2
  | .push3 _ => 3
  | .push4 _ => 4
  | .push5 _ => 5
  | .push6 _ => 6
  | .push7 _ => 7
  | .push8 _ => 8
  | .push9 _ => 9
  | .push10 _ => 10
  | .push11 _ => 11
  | .push12 _ => 12
  | .push13 _ => 13
  | .push14 _ => 14
  | .push15 _ => 15
  | .push16 _ => 16
  | .push17 _ => 17
  | .push18 _ => 18
  | .push19 _ => 19
  | .push20 _ => 20
  | .push21 _ => 21
  | .push22 _ => 22
  | .push23 _ => 23
  | .push24 _ => 24
  | .push25 _ => 25
  | .push26 _ => 26
  | .push27 _ => 27
  | .push28 _ => 28
  | .push29 _ => 29
  | .push30 _ => 30
  | .push31 _ => 31
  | .push32 _ => 32
  | .dup1 => 0
  | .dup2 => 0
  | .dup3 => 0
  | .dup4 => 0
  | .dup5 => 0
  | .dup6 => 0
  | .dup7 => 0
  | .dup8 => 0
  | .dup9 => 0
  | .dup10 => 0
  | .dup11 => 0
  | .dup12 => 0
  | .dup13 => 0
  | .dup14 => 0
  | .dup15 => 0
  | .dup16 => 0
  | .swap1 => 0
  | .swap2 => 0
  | .swap3 => 0
  | .swap4 => 0
  | .swap5 => 0
  | .swap6 => 0
  | .swap7 => 0
  | .swap8 => 0
  | .swap9 => 0
  | .swap10 => 0
  | .swap11 => 0
  | .swap12 => 0
  | .swap13 => 0
  | .swap14 => 0
  | .swap15 => 0
  | .swap16 => 0
  | .ret => 0

/-- The instructions that make the stack deeper (41_stack_ops R154). -/
def deepens : Instr → Bool
  | .stop => false
  | .add => false
  | .mul => false
  | .sub => false
  | .pop => false
  | .mstore => false
  | .push1 _ => true
  | .push2 _ => true
  | .push3 _ => true
  | .push4 _ => true
  | .push5 _ => true
  | .push6 _ => true
  | .push7 _ => true
  | .push8 _ => true
  | .push9 _ => true
  | .push10 _ => true
  | .push11 _ => true
  | .push12 _ => true
  | .push13 _ => true
  | .push14 _ => true
  | .push15 _ => true
  | .push16 _ => true
  | .push17 _ => true
  | .push18 _ => true
  | .push19 _ => true
  | .push20 _ => true
  | .push21 _ => true
  | .push22 _ => true
  | .push23 _ => true
  | .push24 _ => true
  | .push25 _ => true
  | .push26 _ => true
  | .push27 _ => true
  | .push28 _ => true
  | .push29 _ => true
  | .push30 _ => true
  | .push31 _ => true
  | .push32 _ => true
  | .dup1 => true
  | .dup2 => true
  | .dup3 => true
  | .dup4 => true
  | .dup5 => true
  | .dup6 => true
  | .dup7 => true
  | .dup8 => true
  | .dup9 => true
  | .dup10 => true
  | .dup11 => true
  | .dup12 => true
  | .dup13 => true
  | .dup14 => true
  | .dup15 => true
  | .dup16 => true
  | .swap1 => false
  | .swap2 => false
  | .swap3 => false
  | .swap4 => false
  | .swap5 => false
  | .swap6 => false
  | .swap7 => false
  | .swap8 => false
  | .swap9 => false
  | .swap10 => false
  | .swap11 => false
  | .swap12 => false
  | .swap13 => false
  | .swap14 => false
  | .swap15 => false
  | .swap16 => false
  | .ret => false

/-- The length of memory that MSTORE and RETURN need, 0 for the others (60_exceptions R305). -/
def memoryNeeded (i : Instr) (stack : List Word) : Nat :=
  match i, stack with
  | .mstore, offset :: _ :: _ => low64 offset + 32
  | .ret, offset :: size :: _ => low64 offset + low64 size
  | _, _ => 0

/-- The fault an instruction raises on a frame (60_exceptions R307), the first in the order of its checks (R308). -/
def faultRaised (i : Instr) (f : Frame) (memMax : Nat) : Option FaultCategory :=
  if f.depth < operandsNeeded i then some .stackUnderflow
  else if f.codeEnd - f.pc < immediateBytes i then some .truncatedImmediate
  else if deepens i ∧ f.depth = stackMax then some .stackOverflow
  else if memMax < memoryNeeded i f.stack then some .memoryLimit
  else none

/-! ### Runs -/

/-- Every frame's gas value replaced, to state that it is inert (10_state R30). -/
def State.withGas (s : State) (g : Nat) : State :=
  { s with chain := s.chain.map fun f => { f with gasLeft := g } }

end Sys2Proof.Machine
end

