-- ==== Sys2Proof/Certificates/Slice0/Obligations.lean ====
section
/-! DEFINITION. The statements for the provers. Each docstring names the rule of spec/ it formalises; `log n` is
notes/assumptions/n.md. Stacks are lists with the TOP FIRST (log 9), so the spec's `S[n]` is element `n`. -/

open Sys2Proof Sys2Proof.Machine

/-! ### Encoding -/

/-- 30_encoding R91, R92, R98 to R101: decoding the bytes of a well-formed instruction gives it back, whatever follows. -/
def Obligations.DecodeOfEncodeGivesInstrBack : Prop :=
  ∀ (i : Instr) (rest : List Byte), i.wellFormed = true → decode (encode i ++ rest) = .instr i rest

/-- 30_encoding R103: whatever the decoder accepts is well-formed, and its encoding is the bytes it took. -/
def Obligations.EncodeOfDecodeGivesBytesBack : Prop :=
  ∀ (bytes : List Byte) (i : Instr) (rest : List Byte),
    decode bytes = .instr i rest → i.wellFormed = true ∧ bytes = encode i ++ rest

/-- 30_encoding R91, R92, R98 to R101: words written out from the tables decode to the instructions they stand for. The seven
single bytes are PRESUMED (R98, log 4). -/
def Obligations.TableWordsDecode : Prop :=
  decode [0x00#8] = .instr .stop [] ∧ decode [0x01#8] = .instr .add [] ∧ decode [0x02#8] = .instr .mul [] ∧
  decode [0x03#8] = .instr .sub [] ∧ decode [0x50#8] = .instr .pop [] ∧ decode [0x52#8] = .instr .mstore [] ∧
  decode [0xF3#8] = .instr .ret [] ∧ decode [0x61#8, 0x12#8, 0x34#8] = .instr (.push2 0x1234#256) [] ∧
  decode [0x80#8, 0x01#8] = .instr .dup1 [0x01#8] ∧ decode [0x8F#8] = .instr .dup16 [] ∧
  decode [0x90#8] = .instr .swap1 [] ∧ decode [0x9F#8] = .instr .swap16 [] ∧
  decode [0x5F#8] = .unsupported 0x5F#8 ∧ decode [0x61#8, 0x12#8] = .truncated 2

/-- 30_encoding R104 and 44 R257: exactly 185 byte values have no instruction, and a step that fetches one faults with
UnsupportedOpcode whatever the stack holds, nothing else having changed. Which values they are rests on the seven PRESUMED
opcode bytes (log 4). -/
def Obligations.UnsupportedBytesFault : Prop :=
  (∀ (op : Byte) (rest : List Byte), decode (op :: rest) = .unsupported op ↔ UnsupportedByte op.toNat) ∧
  ((List.range 256).filter fun v => decide (UnsupportedByte v)).length = 185 ∧
  ∀ (s : State) (i : Nat) (f : Frame) (op : Byte),
    s.run = .running → s.Current i f → f.pc < f.codeEnd → f.codeEnd ≤ f.code.length → f.code[f.pc]? = some op →
    UnsupportedByte op.toNat →
    step s = .next { s with chain := [], cur := none, fault := some .unsupportedOpcode, run := .halted }

/-- 30_encoding R93: the length of a decoded instruction is told from its opcode byte alone. -/
def Obligations.LengthFromOpcodeByte : Prop :=
  ∀ (op : Byte) (bytes : List Byte) (i : Instr) (rest : List Byte), decode (op :: bytes) = .instr i rest →
    (op :: bytes).length = (if 0x60 ≤ op.toNat ∧ op.toNat ≤ 0x7F then 1 + (op.toNat - 0x5F) else 1) + rest.length

/-- 30_encoding R95: the immediate of PUSH`N` is the `N` bytes after the opcode byte, assembled big-endian and zero-extended,
as a sum and byte by byte. -/
def Obligations.PushImmediateIsBigEndian : Prop :=
  (∀ imm : List Byte, imm.length ≤ 32 →
    (beWord imm).toNat = ((List.range imm.length).map fun j => (imm.getD j 0#8).toNat * 256 ^ (imm.length - 1 - j)).sum ∧
    (∀ i, i < imm.length → byteOf (beWord imm) i = imm.getD (imm.length - 1 - i) 0#8) ∧
    (∀ i, imm.length ≤ i → i ≤ 31 → byteOf (beWord imm) i = 0#8)) ∧
  (∀ p ∈ pushFamily, ∀ imm rest : List Byte, imm.length = p.1 →
    decode (BitVec.ofNat 8 (0x5F + p.1) :: (imm ++ rest)) = .instr (p.2 (beWord imm)) rest) ∧
  decode [0x61#8, 0x12#8, 0x34#8] = .instr (.push2 0x1234#256) []

/-- 00_scope R10, 20_memory R63: `be(be32(v)) = v`, and `be32(be(s)) = s` for a 32-byte `s`, so a PUSH32 followed by MSTORE
writes the immediate bytes in their order. -/
def Obligations.StoreOrderInvertsPushOrder : Prop :=
  (∀ v : Word, (be32 v).length = 32 ∧ (∀ i, i < 32 → (be32 v)[i]? = some (byteOf v (31 - i))) ∧ beNat (be32 v) = v.toNat) ∧
  (∀ s : List Byte, s.length = 32 → be32 (beWord s) = s)

/-- 30_encoding R94, R109, R111: disassembling the bytes of a listing of well-formed instructions gives the listing. -/
def Obligations.DisassembleOfAssemble : Prop :=
  ∀ listing : List Instr, (∀ i ∈ listing, i.wellFormed = true) → disassemble (assemble listing) = some listing

/-! ### The MAU -/

/-- 40 R120, R121: the modular sum and difference, and the spec's examples. -/
def Obligations.MauModularSumAndDifference : Prop :=
  (∀ a b : Word, (mauAdd a b).toNat = (a.toNat + b.toNat) % 2 ^ 256) ∧
  (∀ a b : Word, (mauSub a b).toNat = if b.toNat ≤ a.toNat then a.toNat - b.toNat else 2 ^ 256 + a.toNat - b.toNat) ∧
  (mauAdd (BitVec.allOnes 256) 1 = 0 ∧ (mauSub 3 5).toNat = 2 ^ 256 - 2)

/-- 40 R122: the modular product, the low half of the exact one, and the spec's examples. That it is also the low half of the
product of the two's-complement readings is the rule's own derivation. -/
def Obligations.MauModularProduct : Prop :=
  (∀ a b : Word, (mauMul a b).toNat = (a.toNat * b.toNat) % 2 ^ 256 ∧ mauMul a b = BitVec.ofInt 256 (a.toInt * b.toInt)) ∧
  (mauMul (BitVec.ofNat 256 (2 ^ 128)) (BitVec.ofNat 256 (2 ^ 128)) = 0 ∧
    mauMul (BitVec.allOnes 256) (BitVec.allOnes 256) = 1)

/-- 40 R130: the inverse laws, and multiplication by zero and by one. -/
def Obligations.MauInverseLaws : Prop :=
  ∀ a b : Word, mauSub (mauAdd a b) b = a ∧ mauAdd (mauSub a b) b = a ∧ mauMul a 0 = 0 ∧ mauMul a 1 = a

/-- 40 R131, the spec's derivation: the laws of the integers modulo 2^256. -/
def Obligations.MauRingLaws : Prop :=
  ∀ a b c : Word,
    mauAdd a b = mauAdd b a ∧ mauMul a b = mauMul b a ∧
    mauAdd (mauAdd a b) c = mauAdd a (mauAdd b c) ∧ mauMul (mauMul a b) c = mauMul a (mauMul b c) ∧
    mauMul a (mauAdd b c) = mauAdd (mauMul a b) (mauMul a c) ∧
    mauAdd a 0 = a ∧ mauSub a 0 = a ∧ mauSub a a = 0 ∧
    (mauSub 0 a).toNat = (2 ^ 256 - a.toNat) % 2 ^ 256 ∧ mauSub a b = mauAdd a (mauSub 0 b) ∧
    mauMul a (BitVec.ofNat 256 (2 ^ 256 - 1)) = mauSub 0 a ∧ mauMul 0 a = 0 ∧ mauMul 1 a = a

/-- 40 R133: the byte-serial loop of `add` gives the modular sum, and its discarded carry is the bit above. -/
def Obligations.ByteSerialAddIsModularSum : Prop :=
  ∀ a b : Word, mauAddSerial a b = mauAdd a b ∧ (addBytes (le32 a) (le32 b) 0).2 = (a.toNat + b.toNat) / 2 ^ 256

/-- 40 R134: the byte-serial loop of `sub` gives the modular difference, and its discarded borrow says `A < B`. -/
def Obligations.ByteSerialSubIsModularDifference : Prop :=
  ∀ a b : Word, mauSubSerial a b = mauSub a b ∧
    (subBytes (le32 a) (le32 b) 0).2 = if a.toNat < b.toNat then 1 else 0

/-- 40 R135: after the loops of `mul` the 64-byte scratch buffer holds the product exactly, and its low 32 bytes are the
modular product. -/
def Obligations.ByteSerialMulIsExactProduct : Prop :=
  ∀ a b : Word, (mulScratch a b).length = 64 ∧ leNat (mulScratch a b) = a.toNat * b.toNat ∧ mauMulSerial a b = mauMul a b

/-- 10_state R22: two Words are equal exactly when all 32 bytes are equal. -/
def Obligations.WordEqualityIsBytewise : Prop :=
  ∀ a b : Word, (a = b ↔ ∀ i, i < 32 → byteOf a i = byteOf b i) ∧ wordOfLe (le32 a) = a

/-! ### The stack primitives -/

/-- 41 R150, R151, R152: `push`, `pop`, `peek` and the write through `peek`'s reference. -/
def Obligations.StackPrimitives : Prop :=
  ∀ f : Frame,
    (∀ v, f.depth = 1024 → f.push v = .error .stackOverflow) ∧
    (∀ v, f.depth < 1024 → f.push v = .ok { f with stack := v :: f.stack }) ∧
    (f.stack = [] → f.pop = .error .stackUnderflow) ∧
    (∀ v rest, f.stack = v :: rest → f.pop = .ok (v, { f with stack := rest })) ∧
    (∀ n, f.depth ≤ n → f.peek n = .error .stackUnderflow) ∧
    (∀ n v, f.stack[n]? = some v → f.peek n = .ok v) ∧
    (∀ n v, n < f.depth → (f.poke n v).depth = f.depth ∧ (f.poke n v).peek n = .ok v ∧
      ∀ k, k ≠ n → (f.poke n v).stack[k]? = f.stack[k]?)

/-- 41 R153: last in, first out; the boundaries; the depth stays at most 1024. -/
def Obligations.StackLifoLaw : Prop :=
  (∀ (f : Frame) (v1 v2 : Word), f.depth ≤ 1022 →
    ∃ f1 f2 f3 : Frame, f.push v1 = .ok f1 ∧ f1.push v2 = .ok f2 ∧ f2.pop = .ok (v2, f3) ∧ f3.pop = .ok (v1, f)) ∧
  (∀ (f : Frame) (v : Word), f.depth = 1023 → ∃ g, f.push v = .ok g ∧ g.depth = 1024) ∧
  (∀ (f g : Frame) (v : Word), f.depth ≤ 1024 → f.push v = .ok g → g.depth ≤ 1024) ∧
  (∀ (f g : Frame) (v : Word), f.depth ≤ 1024 → f.pop = .ok (v, g) → g.depth ≤ 1024)

/-! ### ADD, MUL, SUB, POP, DUP, SWAP -/

/-- 40 R125: ADD. Its opcode byte is PRESUMED (log 4). -/
def Obligations.AddInstruction : Prop :=
  encode .add = [0x01#8] ∧
  ∀ (s : State) (i : Nat) (f : Frame), s.Current i f →
    (∀ b a rest, f.stack = b :: a :: rest → f.depth ≤ 1024 →
      exec .add s = .next { s with
        chain := s.chain.set i { f with stack := BitVec.ofNat 256 (a.toNat + b.toNat) :: rest } }) ∧
    (f.depth < 2 →
      exec .add s = .next { s with chain := [], cur := none, fault := some .stackUnderflow, run := .halted })

/-- 40 R126: MUL. Its opcode byte is PRESUMED (log 4). -/
def Obligations.MulInstruction : Prop :=
  encode .mul = [0x02#8] ∧
  ∀ (s : State) (i : Nat) (f : Frame), s.Current i f →
    (∀ b a rest, f.stack = b :: a :: rest → f.depth ≤ 1024 →
      exec .mul s = .next { s with
        chain := s.chain.set i { f with stack := BitVec.ofNat 256 (a.toNat * b.toNat) :: rest } }) ∧
    (f.depth < 2 →
      exec .mul s = .next { s with chain := [], cur := none, fault := some .stackUnderflow, run := .halted })

/-- 40 R127: SUB, the second entry minus the top. Its opcode byte is PRESUMED (log 4). -/
def Obligations.SubInstruction : Prop :=
  encode .sub = [0x03#8] ∧
  ∀ (s : State) (i : Nat) (f : Frame), s.Current i f →
    (∀ b a rest, f.stack = b :: a :: rest → f.depth ≤ 1024 →
      exec .sub s = .next { s with
        chain := s.chain.set i { f with stack := BitVec.ofInt 256 ((a.toNat : Int) - (b.toNat : Int)) :: rest } }) ∧
    (f.depth < 2 →
      exec .sub s = .next { s with chain := [], cur := none, fault := some .stackUnderflow, run := .halted })

/-- 41 R155: POP. Its opcode byte is PRESUMED (log 4). -/
def Obligations.PopInstruction : Prop :=
  encode .pop = [0x50#8] ∧
  ∀ (s : State) (i : Nat) (f : Frame), s.Current i f →
    (∀ v rest, f.stack = v :: rest →
      exec .pop s = .next { s with chain := s.chain.set i { f with stack := rest } }) ∧
    (f.stack = [] →
      exec .pop s = .next { s with chain := [], cur := none, fault := some .stackUnderflow, run := .halted })

/-- 41 R156: DUP1 to DUP16. -/
def Obligations.DupInstructions : Prop :=
  ∀ p ∈ dupFamily, encode p.2 = [BitVec.ofNat 8 (0x7F + p.1)] ∧
  ∀ (s : State) (i : Nat) (f : Frame), s.Current i f →
    (∀ v, f.stack[p.1 - 1]? = some v → f.depth < 1024 →
      exec p.2 s = .next { s with chain := s.chain.set i { f with stack := v :: f.stack } }) ∧
    (f.depth < p.1 →
      exec p.2 s = .next { s with chain := [], cur := none, fault := some .stackUnderflow, run := .halted }) ∧
    (f.depth = 1024 →
      exec p.2 s = .next { s with chain := [], cur := none, fault := some .stackOverflow, run := .halted })

/-- 41 R157: SWAP1 to SWAP16. Only positions 0 and `N` change. -/
def Obligations.SwapInstructions : Prop :=
  ∀ p ∈ swapFamily, encode p.2 = [BitVec.ofNat 8 (0x8F + p.1)] ∧
  ∀ (s : State) (i : Nat) (f : Frame), s.Current i f →
    (p.1 + 1 ≤ f.depth → ∃ stack : List Word,
      exec p.2 s = .next { s with chain := s.chain.set i { f with stack := stack } } ∧
      stack.length = f.stack.length ∧ stack[0]? = f.stack[p.1]? ∧ stack[p.1]? = f.stack[0]? ∧
      (∀ k, k ≠ 0 → k ≠ p.1 → stack[k]? = f.stack[k]?) ∧
      (f.stack[0]? = f.stack[p.1]? → stack = f.stack)) ∧
    (f.depth ≤ p.1 →
      exec p.2 s = .next { s with chain := [], cur := none, fault := some .stackUnderflow, run := .halted })

/-! ### PUSH -/

/-- 42 R200 to R233, the meaning on the state after fetch: PUSH1 to PUSH32, with the order of their two checks (60 R308(a)). -/
def Obligations.PushInstructions : Prop :=
  ∀ p ∈ pushFamily, ∀ (imm : Word) (s : State) (i : Nat) (f : Frame), s.Current i f →
    (p.1 ≤ f.codeEnd - f.pc → f.depth < 1024 →
      exec (p.2 imm) s = .next { s with chain := s.chain.set i { f with stack := imm :: f.stack, pc := f.pc + p.1 } }) ∧
    (f.codeEnd - f.pc < p.1 →
      exec (p.2 imm) s = .next { s with chain := [], cur := none, fault := some .truncatedImmediate, run := .halted }) ∧
    (p.1 ≤ f.codeEnd - f.pc → f.depth = 1024 →
      exec (p.2 imm) s = .next { s with chain := [], cur := none, fault := some .stackOverflow, run := .halted })

/-- 42 R200: a step that fetches the opcode byte of PUSH`N` pushes the big-endian value of the `N` code bytes after it and
leaves `pc` behind them, or faults, the length check first. -/
def Obligations.PushStep : Prop :=
  ∀ p ∈ pushFamily, ∀ (s : State) (i : Nat) (f : Frame),
    s.run = .running → s.Current i f → f.codeEnd = f.code.length → f.code[f.pc]? = some (BitVec.ofNat 8 (0x5F + p.1)) →
    (p.1 ≤ f.codeEnd - (f.pc + 1) → f.depth < 1024 →
      step s = .next { s with chain := s.chain.set i { f with
        stack := BitVec.ofNat 256 (beNat ((f.code.drop (f.pc + 1)).take p.1)) :: f.stack, pc := f.pc + 1 + p.1 } }) ∧
    (f.codeEnd - (f.pc + 1) < p.1 →
      step s = .next { s with chain := [], cur := none, fault := some .truncatedImmediate, run := .halted }) ∧
    (p.1 ≤ f.codeEnd - (f.pc + 1) → f.depth = 1024 →
      step s = .next { s with chain := [], cur := none, fault := some .stackOverflow, run := .halted })

/-! ### Memory -/

/-- 20_memory R66: growth to exactly `n` bytes, never shrinking, zero-filled, no byte that existed changed; MemoryLimit
above `MEM_MAX`. -/
def Obligations.MemGrowRule : Prop :=
  ∀ (memMax n : Nat) (m : Memory),
    (memMax < n → m.grow memMax n = .error .memoryLimit) ∧
    (n ≤ memMax → ∃ g : Memory, m.grow memMax n = .ok g ∧ g.len = max m.len n ∧
      (∀ a, a < m.len → g.byteAt? a = m.byteAt? a) ∧
      (m.wf → ∀ a, m.len ≤ a → a < n → g.byteAt? a = some 0#8) ∧ (n ≤ m.len → g = m))

/-- 20_memory R67, R68: what `MemRead` returns and what `MemWrite` changes, byte by byte. -/
def Obligations.MemReadWriteRules : Prop :=
  (∀ (m : Memory) (addr n : Nat), (m.slice addr n).len = n ∧
    (∀ k, k < n → (m.slice addr n).read k = m.read (addr + k)) ∧ m.slice addr 0 = Memory.empty) ∧
  (∀ (m : Memory) (addr : Nat) (s : List Byte), m.wf → (m.write addr s).len = m.len ∧
    (∀ k, k < s.length → (m.write addr s).read (addr + k) = s.getD k 0#8) ∧
    (∀ a, a < addr ∨ addr + s.length ≤ a → (m.write addr s).read a = m.read a))

/-- 10_state R26 (log 8): in canonical form, byte sequences with the same length and the same bytes are the same data. -/
def Obligations.CanonicalMemoryIsUnique : Prop :=
  ∀ m m' : Memory, m.wf → m'.wf → m.len = m'.len → (∀ a, a < m.len → m.read a = m'.read a) → m = m'

/-- 20_memory R71: of two stores whose ranges overlap, the later wins byte by byte. -/
def Obligations.LaterStoreWins : Prop :=
  ∀ (m : Memory) (a1 a2 : Nat) (v1 v2 : Word), m.wf → a1 + 32 ≤ m.len → a2 + 32 ≤ m.len → ∀ a,
    ((m.write a1 (be32 v1)).write a2 (be32 v2)).read a =
      if a2 ≤ a ∧ a < a2 + 32 then byteOf v2 (31 - (a - a2))
      else if a1 ≤ a ∧ a < a1 + 32 then byteOf v1 (31 - (a - a1))
      else m.read a

/-- 43_mstore R240: MSTORE, with the bytes it stores (20_memory R62) and every other byte of memory as before; bytes that
growth exposes are zero (R242). Its opcode byte is PRESUMED (log 4). -/
def Obligations.MstoreInstruction : Prop :=
  encode .mstore = [0x52#8] ∧
  ∀ (s : State) (i : Nat) (f : Frame), s.Current i f →
    (∀ offset value rest, f.stack = offset :: value :: rest → f.mem.wf → offset.toNat % 2 ^ 64 + 32 ≤ s.config.memMax →
      ∃ m : Memory, exec .mstore s = .next { s with chain := s.chain.set i { f with stack := rest, mem := m } } ∧
        m.len = max f.mem.len (offset.toNat % 2 ^ 64 + 32) ∧
        (∀ k, k < 32 → m.read (offset.toNat % 2 ^ 64 + k) = byteOf value (31 - k)) ∧
        (∀ a, a < offset.toNat % 2 ^ 64 ∨ offset.toNat % 2 ^ 64 + 32 ≤ a →
          m.read a = if a < f.mem.len then f.mem.read a else 0#8)) ∧
    (∀ offset value rest, f.stack = offset :: value :: rest → s.config.memMax < offset.toNat % 2 ^ 64 + 32 →
      exec .mstore s = .next { s with chain := [], cur := none, fault := some .memoryLimit, run := .halted }) ∧
    (f.depth < 2 →
      exec .mstore s = .next { s with chain := [], cur := none, fault := some .stackUnderflow, run := .halted })

/-- 20_memory R65: an offset or a size is the low 64 bits of its Word; bits 255 to 64 have no effect on MSTORE or RETURN. -/
def Obligations.OffsetsAreLow64Bits : Prop :=
  ∀ (s : State) (f : Frame) (x y x' y' : Word) (rest : List Word),
    x.toNat % 2 ^ 64 = x'.toNat % 2 ^ 64 →
    exec .mstore (s.setFrame { f with stack := x :: y :: rest }) = exec .mstore (s.setFrame { f with stack := x' :: y :: rest }) ∧
    (y.toNat % 2 ^ 64 = y'.toNat % 2 ^ 64 →
      exec .ret (s.setFrame { f with stack := x :: y :: rest }) = exec .ret (s.setFrame { f with stack := x' :: y' :: rest }))

/-! ### RETURN, STOP, the end of the code -/

/-- 44 R256: RETURN. The buffer is replaced as a whole by the `s` bytes from `o` on, zero beyond the memory's length; then
the frame retires (R253). Its opcode byte is PRESUMED (log 4). -/
def Obligations.ReturnInstruction : Prop :=
  encode .ret = [0xF3#8] ∧
  ∀ (s : State) (i : Nat) (f : Frame), s.Current i f →
    (∀ offset size rest, f.stack = offset :: size :: rest → f.mem.wf →
      offset.toNat % 2 ^ 64 + size.toNat % 2 ^ 64 ≤ s.config.memMax →
      ∃ d : Memory, exec .ret s = .next { s with
          retdata := d, chain := s.chain.eraseIdx i, cur := f.caller,
          run := if f.caller = none then .halted else s.run } ∧
        d.len = size.toNat % 2 ^ 64 ∧
        (∀ k, k < size.toNat % 2 ^ 64 → d.read k =
          if offset.toNat % 2 ^ 64 + k < f.mem.len then f.mem.read (offset.toNat % 2 ^ 64 + k) else 0#8)) ∧
    (∀ offset size rest, f.stack = offset :: size :: rest →
      s.config.memMax < offset.toNat % 2 ^ 64 + size.toNat % 2 ^ 64 →
      exec .ret s = .next { s with chain := [], cur := none, fault := some .memoryLimit, run := .halted }) ∧
    (f.depth < 2 →
      exec .ret s = .next { s with chain := [], cur := none, fault := some .stackUnderflow, run := .halted })

/-- 44 R254: STOP retires the current frame (R253), whatever its stack and memory hold, and cannot fault. Its opcode byte is
PRESUMED (log 4). -/
def Obligations.StopInstruction : Prop :=
  encode .stop = [0x00#8] ∧
  ∀ (s : State) (i : Nat) (f : Frame), s.Current i f →
    exec .stop s = .next { s with
      chain := s.chain.eraseIdx i, cur := f.caller, run := if f.caller = none then .halted else s.run }

/-- 44 R252: at the end of the code no byte is fetched and the frame retires exactly as by STOP. -/
def Obligations.EndOfCodeRetires : Prop :=
  ∀ (s : State) (i : Nat) (f : Frame), s.run = .running → s.Current i f → f.pc = f.codeEnd →
    step s = .next { s with
      chain := s.chain.eraseIdx i, cur := f.caller, run := if f.caller = none then .halted else .running } ∧
    step s = exec .stop s

/-- 44 R253, R255, 10_state R28(d): after a frame that is not the root has retired, its caller is current, exactly as it
stopped being current; after the root has, the chain is empty and the loop Halted. -/
def Obligations.RetirementResumesCaller : Prop :=
  ∀ (s t : State) (i : Nat) (f : Frame), s.Inv → s.run = .running → s.Current i f → exec .stop s = .next t →
    t.nframes + 1 = s.nframes ∧ t.retdata = s.retdata ∧ t.fault = none ∧
    (0 < i → t.run = .running ∧ t.cur = some (i - 1) ∧ t.frame? = s.chain[i - 1]?) ∧
    (i = 0 → t.run = .halted ∧ t.cur = none ∧ t.chain = [])

/-! ### Faults -/

/-- 60 R310: whenever a step of the running machine raises a fault, all frames are released, the chain is empty, `cur` is none,
`fault` is the category, the loop is Halted, and nothing else has changed; the return data is not written. -/
def Obligations.FaultEntry : Prop :=
  ∀ (s t : State) (c : FaultCategory), s.Inv → s.run = .running → step s = .next t → t.fault = some c →
    t = { s with chain := [], cur := none, fault := some c, run := .halted }

/-- 60 R307, R308: every instruction answers a next state on every frame within its capacity, and it raises exactly the fault
of the table, the first in the order of its checks, or none; the end of the code raises none, and an opcode byte that no
instruction has always UnsupportedOpcode. -/
def Obligations.FaultTable : Prop :=
  (∀ (i : Instr) (s : State) (k : Nat) (f : Frame), s.Current k f → f.depth ≤ 1024 → s.fault = none →
    ∃ t, exec i s = .next t ∧ t.fault = faultRaised i f s.config.memMax) ∧
  (∀ (s : State) (k : Nat) (f : Frame), s.run = .running → s.Current k f → s.fault = none →
    (f.pc = f.codeEnd → ∃ t, step s = .next t ∧ t.fault = none) ∧
    (∀ op, f.pc < f.codeEnd → f.fetch = .unsupported op → ∃ t, step s = .next t ∧ t.fault = some .unsupportedOpcode))

/-! ### The step -/

/-- 44 R250: when the code bytes at `pc` decode to an instruction, the step is that instruction's meaning on the state whose
`pc` is past the opcode byte. -/
def Obligations.StepRunsDecodedInstruction : Prop :=
  ∀ (s : State) (k : Nat) (f : Frame) (i : Instr) (rest : List Byte),
    s.run = .running → s.Current k f → f.pc ≠ f.codeEnd → decode ((f.code.take f.codeEnd).drop f.pc) = .instr i rest →
    step s = exec i { s with chain := s.chain.set k { f with pc := f.pc + 1 } }

/-- 60 R335: Halted is a state in which the core waits for the host. That a step then changes nothing is the model's reading
(log 14). -/
def Obligations.HaltedStepChangesNothing : Prop :=
  ∀ s : State, s.run = .halted → step s = .next s

/-- 10_state R23, R24, R32, R33: every step keeps the invariant. -/
def Obligations.StepKeepsMachineInvariant : Prop :=
  ∀ s t : State, s.Inv → step s = .next t → t.Inv

/-- Under the invariant a step always answers a next state: the model's own stops are out of reach (70 R353; log 10). -/
def Obligations.StepNeverStuck : Prop :=
  ∀ s : State, s.Inv → ∃ t, step s = .next t

/-- 10_state R44: the invariant holds after reset, with the values the rule gives. -/
def Obligations.ResetMeetsMachineInvariant : Prop :=
  State.reset.Inv ∧ State.reset.chain = [] ∧ State.reset.nframes = 0 ∧ State.reset.cur = none ∧
    State.reset.retdata.len = 0 ∧ State.reset.run = .halted ∧ State.reset.fault = none

/-- 44 R264: no step changes `code`, `code_end`, `caller`, `gas_left`, `module` or `stackmgr`, nor a frame other than the
current one, and no step reads `retdata` or `fault`: with other contents there the step does the same. -/
def Obligations.WhatStepsNeverDo : Prop :=
  (∀ s t : State, s.Inv → step s = .next t →
    t.moduleHandle = s.moduleHandle ∧ t.stackMgr = s.stackMgr ∧ t.config = s.config ∧
    ∀ (k : Nat) (g : Frame), t.chain[k]? = some g → ∃ f, s.chain[k]? = some f ∧
      g.code = f.code ∧ g.codeEnd = f.codeEnd ∧ g.caller = f.caller ∧ g.gasLeft = f.gasLeft ∧ (s.cur ≠ some k → g = f)) ∧
  (∀ (s t : State) (d : Memory) (c : Option FaultCategory), step s = .next t →
    ∃ t', step { s with retdata := d, fault := c } = .next t' ∧
      { t' with retdata := t.retdata, fault := t.fault } = t)

/-- 10_state R30, 60 R331: `gas_left` is inert: with another gas value in every frame a step does the same. -/
def Obligations.GasIsInert : Prop :=
  ∀ (s t : State) (g : Nat), step s = .next t → step (s.withGas g) = .next (t.withGas g)

/-- 10_state R32: the invariants of a frame hold after every step, its memory never shrinks, and its constants stay. -/
def Obligations.FrameInvariants : Prop :=
  ∀ (s t : State), s.Inv → step s = .next t → ∀ (k : Nat) (g : Frame), t.chain[k]? = some g →
    ∃ f, s.chain[k]? = some f ∧ g.depth ≤ 1024 ∧ g.pc ≤ g.codeEnd ∧ f.mem.len ≤ g.mem.len ∧ g.mem.len ≤ t.config.memMax ∧
      g.codeEnd = f.codeEnd ∧ g.code = f.code ∧ g.caller = f.caller ∧ g.gasLeft = f.gasLeft

/-- 10_state R28: while a frame lives, a step moves its `pc` by exactly the length of the instruction it runs. -/
def Obligations.PcMovesByInstructionLength : Prop :=
  ∀ (s t : State) (k : Nat) (f : Frame) (i : Instr) (rest : List Byte),
    s.Inv → s.run = .running → s.Current k f → f.fetch = .instr i rest → step s = .next t → t.nframes = s.nframes →
    ∃ g, t.Current k g ∧ g.pc = f.pc + (encode i).length ∧ f.pc < g.pc ∧ g.pc ≤ g.codeEnd

/-- 10_state R36: only RETURN writes the return-data buffer. -/
def Obligations.OnlyReturnWritesReturnData : Prop :=
  ∀ (s t : State) (k : Nat) (f : Frame), s.run = .running → s.Current k f →
    (∀ rest, f.fetch ≠ .instr .ret rest) → step s = .next t → t.retdata = s.retdata

/-- 44 R261: an interpretation ends: after the sum of `code_end + 1` over the frames on the chain the loop is Halted. A run that
ends earlier passes the steps that are left Halted, where a step changes nothing: the model's choice (log 14). -/
def Obligations.EveryRunEnds : Prop :=
  ∀ s : State, s.Inv → s.run = .running →
    ∃ t, Host.Core.run Sys2Proof.core ((s.chain.map fun f => f.codeEnd + 1).sum) s = .next t ∧ t.run = .halted

/-! ### The host's operations -/

/-- 45 R281, R282(a), (b): `allocate_frame`. That the designator is the position in the chain is the model's choice
(log 5), and so is the premise on the gas value (log 11). -/
def Obligations.AllocateFrameOperation : Prop :=
  ∀ (s : State) (code : List Byte) (gas : Nat), gas < 2 ^ s.config.gasBits →
    (s.run = .halted → s.nframes < s.config.maxFrames → code.length ≤ s.config.codeMax →
      ∃ d f, hostAllocateFrame code gas s = ({ s with chain := s.chain ++ [f], cur := some d }, .frame d) ∧
        (s.chain ++ [f])[d]? = some f ∧ d = s.chain.length ∧
        f = { stack := []
              mem := { len := 0, cells := [] }
              pc := 0
              codeEnd := code.length
              code := code
              gasLeft := gas
              caller := s.cur }) ∧
    (s.run = .running ∨ s.config.maxFrames ≤ s.nframes ∨ s.config.codeMax < code.length →
      ∃ why, hostAllocateFrame code gas s = (s, .refused why))

/-- 45 R283, R284: `free_frame`, only of the current frame and only while Halted. Designators are positions (log 5). -/
def Obligations.FreeFrameOperation : Prop :=
  ∀ (s : State) (d : Nat),
    (∀ f, s.run = .halted → s.Current d f →
      hostFreeFrame d s = ({ s with chain := s.chain.eraseIdx d, cur := f.caller }, .done)) ∧
    (s.run = .running ∨ s.cur ≠ some d → ∃ why, hostFreeFrame d s = (s, .refused why))

/-- 45 R285, 44 R263: `interpret` of a chain returns, with the fault register, Halted and the chain empty. The equality with the
run of the machine rests on the model's number of steps (log 13) and on its steps while Halted (log 14). -/
def Obligations.InterpretRunsToTheEnd : Prop :=
  ∀ s : State, s.Inv → s.run = .halted → s.cur ≠ none →
    ∃ t, hostStep .interpret s = .next (t, .ended t.fault) ∧ t.run = .halted ∧ t.chain = [] ∧ t.cur = none ∧
      t.moduleHandle = s.moduleHandle ∧ t.stackMgr = s.stackMgr ∧
      Host.Core.run Sys2Proof.core ((s.chain.map fun f => f.codeEnd + 1).sum) { s with fault := none, run := .running } = .next t

/-- 45 R286: `interpret` with no current frame, or while Running, is refused and changes nothing. -/
def Obligations.InterpretWithoutFrameIsRefused : Prop :=
  ∀ s : State, s.cur = none ∨ s.run = .running → ∃ why, hostStep .interpret s = .next (s, .refused why)

/-- 70 R340, R341: reset, from any state, also one that is Running. -/
def Obligations.ResetOperation : Prop :=
  ∀ s : State, ∃ t, hostStep .reset s = .next (t, .done) ∧ t.chain = [] ∧ t.cur = none ∧ t.retdata.len = 0 ∧
    t.retdata.cells = [] ∧ t.run = .halted ∧ t.fault = none

/-- 10_state R23, R32, R33, 45 R291: every operation of the host keeps the invariant of the machine. -/
def Obligations.HostOperationsKeepMachineInvariant : Prop :=
  ∀ (op : HostOp) (s t : State) (r : HostReply), s.Inv → hostStep op s = .next (t, r) → t.Inv

/-- 45 R287, R288, R290, R291: the handles are stored, the two reads change nothing and return what the registers hold, each
while Halted; while Running every operation but reset is refused, and a refused operation changes nothing. -/
def Obligations.HostReadsAndHandles : Prop :=
  (∀ (s : State) (m k : Handle), s.run = .halted →
    hostStep (.setHandles m k) s = .next ({ s with moduleHandle := m, stackMgr := k }, .done) ∧
    hostStep .readReturnData s = .next (s, .returnData s.retdata) ∧
    hostStep .readStatus s = .next (s, .status s.run s.fault)) ∧
  (∀ (op : HostOp) (s : State), s.run = .running → op ≠ .reset → ∃ why, hostStep op s = .next (s, .refused why)) ∧
  (∀ (op : HostOp) (s t : State) (why : HostRefusal), hostStep op s = .next (t, .refused why) → t = s)

/-- 10_state R34, R39, 60 R300: the codes of the two status registers. -/
def Obligations.StatusCodes : Prop :=
  faultCode none = 0 ∧ faultCode (some .stackUnderflow) = 1 ∧ faultCode (some .stackOverflow) = 2 ∧
    faultCode (some .truncatedImmediate) = 3 ∧ faultCode (some .unsupportedOpcode) = 4 ∧
    faultCode (some .memoryLimit) = 5 ∧ RunState.code .halted = 0 ∧ RunState.code .running = 1

/-- The model's choice (log 11): a gas value that is no GAS_BITS-bit value is refused, and nothing changes. -/
def Obligations.OverwideGasIsRefused : Prop :=
  ∀ (s : State) (code : List Byte) (gas : Nat), 2 ^ s.config.gasBits ≤ gas →
    ∃ why, hostStep (.allocateFrame code gas) s = .next (s, .refused why)
end

