-- ==== Sys2Proof/Laws/State.lean ====
section
/-! SUPPORT. One lemma per field per update of State, and what the current frame is after an update, so that no later proof
unfolds a record update. -/

namespace Sys2Proof.Machine

section Raise
variable (s : State) (c : FaultCategory)
@[simp] theorem State.raise_chain : (s.raise c).chain = [] := rfl
@[simp] theorem State.raise_cur : (s.raise c).cur = none := rfl
@[simp] theorem State.raise_retdata : (s.raise c).retdata = s.retdata := rfl
@[simp] theorem State.raise_moduleHandle : (s.raise c).moduleHandle = s.moduleHandle := rfl
@[simp] theorem State.raise_stackMgr : (s.raise c).stackMgr = s.stackMgr := rfl
@[simp] theorem State.raise_run : (s.raise c).run = .halted := rfl
@[simp] theorem State.raise_fault : (s.raise c).fault = some c := rfl
@[simp] theorem State.raise_config : (s.raise c).config = s.config := rfl
@[simp] theorem State.raise_setFrame (f : Frame) : (s.setFrame f).raise c = s.raise c := by
  unfold State.setFrame; split <;> rfl
end Raise

section SetFrame
variable (s : State) (f g : Frame)
@[simp] theorem State.setFrame_cur : (s.setFrame f).cur = s.cur := by unfold State.setFrame; split <;> simp_all
@[simp] theorem State.setFrame_retdata : (s.setFrame f).retdata = s.retdata := by unfold State.setFrame; split <;> rfl
@[simp] theorem State.setFrame_moduleHandle : (s.setFrame f).moduleHandle = s.moduleHandle := by
  unfold State.setFrame; split <;> rfl
@[simp] theorem State.setFrame_stackMgr : (s.setFrame f).stackMgr = s.stackMgr := by unfold State.setFrame; split <;> rfl
@[simp] theorem State.setFrame_run : (s.setFrame f).run = s.run := by unfold State.setFrame; split <;> rfl
@[simp] theorem State.setFrame_fault : (s.setFrame f).fault = s.fault := by unfold State.setFrame; split <;> rfl
@[simp] theorem State.setFrame_config : (s.setFrame f).config = s.config := by unfold State.setFrame; split <;> rfl
@[simp] theorem State.setFrame_nframes : (s.setFrame f).nframes = s.nframes := by
  unfold State.setFrame State.nframes; split <;> simp
@[simp] theorem State.setFrame_setFrame : (s.setFrame f).setFrame g = s.setFrame g := by
  cases h : s.cur <;> simp [State.setFrame, h]
end SetFrame

section Release
variable (s : State) (f : Frame)
@[simp] theorem State.release_retdata : (s.release f).retdata = s.retdata := by unfold State.release; split <;> rfl
@[simp] theorem State.release_moduleHandle : (s.release f).moduleHandle = s.moduleHandle := by
  unfold State.release; split <;> rfl
@[simp] theorem State.release_stackMgr : (s.release f).stackMgr = s.stackMgr := by unfold State.release; split <;> rfl
@[simp] theorem State.release_run : (s.release f).run = s.run := by unfold State.release; split <;> rfl
@[simp] theorem State.release_fault : (s.release f).fault = s.fault := by unfold State.release; split <;> rfl
@[simp] theorem State.release_config : (s.release f).config = s.config := by unfold State.release; split <;> rfl
end Release

section Retire
variable (s : State) (f : Frame)
@[simp] theorem State.retire_retdata : (s.retire f).retdata = s.retdata := by unfold State.retire; split <;> simp
@[simp] theorem State.retire_moduleHandle : (s.retire f).moduleHandle = s.moduleHandle := by
  unfold State.retire; split <;> simp
@[simp] theorem State.retire_stackMgr : (s.retire f).stackMgr = s.stackMgr := by unfold State.retire; split <;> simp
@[simp] theorem State.retire_fault : (s.retire f).fault = s.fault := by unfold State.retire; split <;> simp
@[simp] theorem State.retire_config : (s.retire f).config = s.config := by unfold State.retire; split <;> simp
end Retire

section StartLoop
variable (s : State)
@[simp] theorem State.startLoop_chain : s.startLoop.chain = s.chain := rfl
@[simp] theorem State.startLoop_cur : s.startLoop.cur = s.cur := rfl
@[simp] theorem State.startLoop_retdata : s.startLoop.retdata = s.retdata := rfl
@[simp] theorem State.startLoop_moduleHandle : s.startLoop.moduleHandle = s.moduleHandle := rfl
@[simp] theorem State.startLoop_stackMgr : s.startLoop.stackMgr = s.stackMgr := rfl
@[simp] theorem State.startLoop_run : s.startLoop.run = .running := rfl
@[simp] theorem State.startLoop_fault : s.startLoop.fault = none := rfl
@[simp] theorem State.startLoop_config : s.startLoop.config = s.config := rfl
end StartLoop

/-! ### The current frame -/

section Current
variable {s : State} {i : Nat} {f : Frame}

theorem State.frame?_of_current (h : s.Current i f) : s.frame? = some f := by simp [State.frame?, h.1, h.2]

/-- A current frame is found exactly where `cur` points. -/
theorem State.frame?_eq_some : s.frame? = some f ↔ ∃ i, s.Current i f := by
  cases h : s.cur <;> simp [State.frame?, State.Current, h]

theorem State.setFrame_of_current (h : s.Current i f) (g : Frame) :
    s.setFrame g = { s with chain := s.chain.set i g } := by simp [State.setFrame, h.1]

theorem State.setFrame_current (h : s.Current i f) (g : Frame) : (s.setFrame g).Current i g := by
  refine ⟨by simp [h.1], ?_⟩
  have hi : i < s.chain.length := (List.getElem?_eq_some_iff.mp h.2).1
  simp [State.setFrame_of_current h, hi]

theorem State.release_of_current (h : s.Current i f) :
    s.release f = { s with chain := s.chain.eraseIdx i, cur := f.caller } := by simp [State.release, h.1]

/-- What retirement does, in one equation (44 R253). -/
theorem State.retire_of_current (h : s.Current i f) :
    s.retire f = { s with chain := s.chain.eraseIdx i, cur := f.caller,
                          run := if f.caller = none then .halted else s.run } := by
  unfold State.retire
  split <;> simp_all [State.release_of_current h]

/-- A designator is the last one exactly when the chain ends with it (10_state R23, R24). -/
theorem lastRef_eq_some {n k : Nat} : lastRef n = some k ↔ n = k + 1 := by
  cases n with
  | zero => simp [lastRef]
  | succ n => simp [lastRef]

theorem lastRef_eq_none {n : Nat} : lastRef n = none ↔ n = 0 := by cases n <;> simp [lastRef]

/-- Under the invariant the current frame is the last of the chain. -/
theorem State.length_of_current {k : Nat} (hi : s.Inv) (h : s.Current k f) : s.chain.length = k + 1 := by
  have := hi.2.2.1
  rw [h.1] at this
  exact lastRef_eq_some.mp this.symm

/-- Under the invariant a chain with a current-frame pointer has the current frame. -/
theorem State.exists_current (hi : s.Inv) (h : s.cur ≠ none) : ∃ (k : Nat) (f : Frame), s.Current k f := by
  obtain ⟨k, hk⟩ := Option.ne_none_iff_exists'.mp h
  have hl := hi.2.2.1
  rw [hk] at hl
  have := lastRef_eq_some.mp hl.symm
  have hlt : k < s.chain.length := by rw [State.nframes] at this; exact this ▸ Nat.lt_succ_self k
  exact ⟨k, s.chain[k]'hlt, hk, List.getElem?_eq_getElem hlt⟩

theorem State.frameInv_of_current (hi : s.Inv) (h : s.Current i f) : f.Inv s.config :=
  hi.2.2.2.2.1 f (List.mem_of_getElem? h.2)

end Current

end Sys2Proof.Machine
end

