-- ==== Sys2Proof/Laws/Decode.lean ====
section
/-! SUPPORT. The small laws of the byte orders (00_scope R9, R10) and of the decoder: which opcode bytes lead to which family
(30_encoding R99 to R101, R104). -/

namespace Sys2Proof

open Machine

theorem Machine.byteOf_toNat (v : Word) (i : Nat) : (byteOf v i).toNat = v.toNat / 256 ^ i % 256 := by
  simp [byteOf, BitVec.extractLsb'_toNat, Nat.shiftRight_eq_div_pow, pow_mul]

/-- `n` bytes make a value below `256^n` (42_push R201(c)). -/
theorem Machine.beNat_lt (s : List Byte) : beNat s < 256 ^ s.length := by
  induction s with
  | nil => simp [beNat]
  | cons b rest ih =>
    simp only [beNat, List.length_cons, pow_succ]
    have := b.isLt
    nlinarith [Nat.pos_of_ne_zero (show 256 ^ rest.length ≠ 0 by positivity)]

@[simp] theorem Machine.beBytes_length (n : Nat) (v : Word) : (beBytes n v).length = n := by
  induction n with
  | zero => rfl
  | succ n ih => simp [beBytes, ih]

/-- The value of the low `n` bytes, most significant first, is the Word modulo `256^n`. -/
theorem Machine.beNat_beBytes (n : Nat) (v : Word) : beNat (beBytes n v) = v.toNat % 256 ^ n := by
  induction n with
  | zero => simp [beBytes, beNat, Nat.mod_one]
  | succ n ih =>
    simp only [beBytes, beNat, beBytes_length, ih, byteOf_toNat]
    rw [pow_succ, Nat.mod_mul]; ring

theorem Machine.beWord_toNat {s : List Byte} (h : s.length ≤ 32) : (beWord s).toNat = beNat s := by
  have hs := beNat_lt s
  have : 256 ^ s.length ≤ 256 ^ 32 := Nat.pow_le_pow_right (by decide) h
  have h256 : (256 : Nat) ^ 32 = 2 ^ 256 := by norm_num
  rw [beWord, BitVec.toNat_ofNat, Nat.mod_eq_of_lt (by omega)]

/-- A byte in one of the family ranges is none of the seven single opcodes. -/
theorem decode_of_ne {op : Byte} {rest : List Byte}
    (h : op.toNat ≠ 0x00 ∧ op.toNat ≠ 0x01 ∧ op.toNat ≠ 0x02 ∧ op.toNat ≠ 0x03 ∧ op.toNat ≠ 0x50 ∧ op.toNat ≠ 0x52 ∧
      op.toNat ≠ 0xF3) : decode (op :: rest) = decodeFamily op rest := by
  obtain ⟨h0, h1, h2, h3, h4, h5, h6⟩ := h
  have key : ∀ c : Byte, op.toNat ≠ c.toNat → op ≠ c := fun c hc e => hc (by rw [e])
  simp only [decode, key opStop h0, key opAdd h1, key opMul h2, key opSub h3, key opPop h4, key opMstore h5,
    key opReturn h6, if_false]

theorem decode_push {op : Byte} {rest : List Byte} (h : 0x60 ≤ op.toNat ∧ op.toNat ≤ 0x7F) :
    decode (op :: rest) = decodePush (op.toNat - 0x5F) op rest := by
  rw [decode_of_ne (by omega), decodeFamily, if_pos h]

theorem decode_dup {op : Byte} {rest : List Byte} (h : 0x80 ≤ op.toNat ∧ op.toNat ≤ 0x8F) :
    decode (op :: rest) = decodeRow dupTable (op.toNat - 0x7F) op rest := by
  rw [decode_of_ne (by omega), decodeFamily, if_neg (by omega), if_pos h]

theorem decode_swap {op : Byte} {rest : List Byte} (h : 0x90 ≤ op.toNat ∧ op.toNat ≤ 0x9F) :
    decode (op :: rest) = decodeRow swapTable (op.toNat - 0x8F) op rest := by
  rw [decode_of_ne (by omega), decodeFamily, if_neg (by omega), if_neg (by omega), if_pos h]

theorem pushTable_length : pushTable.length = 32 := rfl
theorem dupTable_length : dupTable.length = 16 := rfl
theorem swapTable_length : swapTable.length = 16 := rfl

end Sys2Proof
end

