-- ==== Sys2Proof/Laws/Memory.lean ====
section
/-! SUPPORT. The laws of byte sequences: every operation keeps the canonical form `Memory.wf`, reading after writing, and
what growth and slices read as (20_memory R66 to R68). -/

namespace Sys2Proof.Machine

/-- The part of the canonical form that does not speak of the length. -/
abbrev cellsSorted (cells : List Host.Cell) : Prop := cells.Pairwise fun c d => c.1 < d.1

@[simp] theorem readCells_nil (a : Nat) : readCells [] a = unlistedByte := rfl

theorem readCells_of_lt {cells : List Host.Cell} {a : Nat} (h : ∀ c ∈ cells, a < c.1) :
    readCells cells a = unlistedByte := by
  induction cells with
  | nil => rfl
  | cons c rest ih =>
    have hc := h c (by simp)
    simp [readCells, show a ≠ c.1 by omega, ih fun d hd => h d (by simp [hd])]

/-- Where a listed byte comes from. -/
theorem readCells_mem {cells : List Host.Cell} {a : Nat} (h : readCells cells a ≠ unlistedByte) :
    (a, readCells cells a) ∈ cells := by
  induction cells with
  | nil => simp at h
  | cons c rest ih =>
    obtain ⟨k, b⟩ := c
    by_cases hk : a = k
    · simp [readCells, hk]
    · simp only [readCells, hk, if_false] at h ⊢
      exact List.mem_cons_of_mem _ (ih h)

theorem readCells_of_mem {cells : List Host.Cell} {c : Host.Cell} (hs : cellsSorted cells) (h : c ∈ cells) :
    readCells cells c.1 = c.2 := by
  induction cells with
  | nil => simp at h
  | cons d rest ih =>
    obtain ⟨k, b⟩ := d
    rw [cellsSorted, List.pairwise_cons] at hs
    rcases List.mem_cons.mp h with rfl | hm
    · simp [readCells]
    · have := hs.1 c hm
      simp [readCells, show c.1 ≠ k by simp at this; omega, ih hs.2 hm]

theorem setCell_mem {cells : List Host.Cell} {a : Nat} {v : Byte} {c : Host.Cell} (h : c ∈ setCell cells a v) :
    c ∈ cells ∨ (c = (a, v) ∧ v ≠ unlistedByte) := by
  induction cells with
  | nil => simp only [setCell] at h; split at h <;> simp_all
  | cons d rest ih =>
    obtain ⟨k, b⟩ := d
    simp only [setCell] at h
    split at h
    · split at h
      · simp_all
      · simp_all; tauto
    · split at h
      · split at h
        · simp_all
        · simp_all; tauto
      · rcases List.mem_cons.mp h with rfl | h
        · simp
        · rcases ih h with h | h <;> simp_all

theorem setCell_sorted {cells : List Host.Cell} (hs : cellsSorted cells) (a : Nat) (v : Byte) :
    cellsSorted (setCell cells a v) := by
  induction cells with
  | nil => simp only [setCell]; split <;> simp [cellsSorted]
  | cons d rest ih =>
    obtain ⟨k, b⟩ := d
    have hs' := hs
    rw [cellsSorted, List.pairwise_cons] at hs
    simp only [setCell]
    split
    · split
      · exact hs'
      · refine List.pairwise_cons.mpr ⟨fun c hc => ?_, hs'⟩
        rcases List.mem_cons.mp hc with rfl | hc
        · assumption
        · have := hs.1 c hc; simp at this ⊢; omega
    · split
      · split
        · exact hs.2
        · subst_vars; exact List.pairwise_cons.mpr ⟨hs.1, hs.2⟩
      · refine List.pairwise_cons.mpr ⟨fun c hc => ?_, ih hs.2⟩
        rcases setCell_mem hc with h | ⟨rfl, -⟩
        · exact hs.1 c h
        · simp; omega

/-- Reading after writing one byte. -/
theorem readCells_setCell {cells : List Host.Cell} (hs : cellsSorted cells) (a : Nat) (v : Byte) (x : Nat) :
    readCells (setCell cells a v) x = if x = a then v else readCells cells x := by
  induction cells with
  | nil => simp only [setCell]; split <;> simp_all [readCells]
  | cons d rest ih =>
    obtain ⟨k, b⟩ := d
    rw [cellsSorted, List.pairwise_cons] at hs
    have hlt : ∀ y, y ≤ k → readCells rest y = unlistedByte := fun y hy =>
      readCells_of_lt fun c hc => by have := hs.1 c hc; simp at this; omega
    simp only [setCell]
    split
    · split
      · by_cases hx : x = a
        · subst hx; simp_all [readCells, show x ≠ k by omega, hlt x (by omega)]
        · simp [hx]
      · by_cases hx : x = a <;> simp [readCells, hx]
    · split
      · subst_vars
        split
        · by_cases hx : x = k
          · subst hx; simp_all
          · simp [readCells, hx]
        · by_cases hx : x = k <;> simp [readCells, hx]
      · by_cases hx : x = k
        · subst hx; simp [readCells, show x ≠ a by omega]
        · simp [readCells, hx, ih hs.2]

/-! ### The canonical form is kept -/

theorem Memory.empty_wf : Memory.empty.wf := by decide

theorem Memory.wf_sorted {m : Memory} (h : m.wf) : cellsSorted m.cells := h.1

/-- Beyond the length a canonical byte sequence lists nothing. -/
theorem Memory.read_of_len_le {m : Memory} (h : m.wf) {a : Nat} (ha : m.len ≤ a) : m.read a = unlistedByte := by
  by_contra hne
  have := (h.2 _ (readCells_mem hne)).2
  simp at this; omega

theorem Memory.grow_ok {memMax n : Nat} {m g : Memory} (h : m.grow memMax n = .ok g) :
    n ≤ memMax ∧ g = { m with len := max m.len n } := by
  unfold Memory.grow at h
  split at h <;> simp_all

theorem Memory.grow_eq (memMax n : Nat) (m : Memory) :
    m.grow memMax n = if memMax < n then .error .memoryLimit else .ok { m with len := max m.len n } := rfl

theorem Memory.extend_wf {m : Memory} (h : m.wf) (n : Nat) : Memory.wf { m with len := max m.len n } :=
  ⟨h.1, fun c hc => ⟨(h.2 c hc).1, by have := (h.2 c hc).2; simp; omega⟩⟩

theorem Memory.grow_wf {memMax n : Nat} {m g : Memory} (hm : m.wf) (h : m.grow memMax n = .ok g) : g.wf := by
  rw [(Memory.grow_ok h).2]; exact Memory.extend_wf hm n

theorem Memory.writeByte_wf {m : Memory} (h : m.wf) {a : Nat} (ha : a < m.len) (b : Byte) : (m.writeByte a b).wf := by
  refine ⟨setCell_sorted h.1 a b, fun c hc => ?_⟩
  rcases setCell_mem hc with hc | ⟨rfl, hb⟩
  · exact h.2 c hc
  · exact ⟨hb, ha⟩

@[simp] theorem Memory.writeByte_len (m : Memory) (a : Nat) (b : Byte) : (m.writeByte a b).len = m.len := rfl

@[simp] theorem Memory.write_len (m : Memory) (addr : Nat) (s : List Byte) : (m.write addr s).len = m.len := by
  induction s generalizing m addr with
  | nil => rfl
  | cons b rest ih => simp [Memory.write, ih]

theorem Memory.write_wf {m : Memory} (h : m.wf) {addr : Nat} {s : List Byte} (hs : addr + s.length ≤ m.len) :
    (m.write addr s).wf := by
  induction s generalizing m addr with
  | nil => exact h
  | cons b rest ih =>
    simp only [List.length_cons] at hs
    exact ih (Memory.writeByte_wf h (by omega) b) (by simp; omega)

theorem Memory.slice_wf {m : Memory} (h : m.wf) (addr n : Nat) : (m.slice addr n).wf := by
  refine ⟨?_, fun c hc => ?_⟩
  · refine List.pairwise_map.mpr ((h.1.filter _).imp_of_mem fun {c d} hc hd hcd => ?_)
    simp only [List.mem_filter, decide_eq_true_eq] at hc hd
    simp; omega
  · simp only [Memory.slice, List.mem_map, List.mem_filter, decide_eq_true_eq] at hc
    obtain ⟨d, ⟨hd, hr⟩, rfl⟩ := hc
    exact ⟨(h.2 d hd).1, by simp [Memory.slice]; omega⟩

@[simp] theorem Memory.slice_len (m : Memory) (addr n : Nat) : (m.slice addr n).len = n := rfl

/-- Reading after writing one byte, in a canonical byte sequence. -/
theorem Memory.read_writeByte {m : Memory} (h : cellsSorted m.cells) (a : Nat) (b : Byte) (x : Nat) :
    (m.writeByte a b).read x = if x = a then b else m.read x := readCells_setCell h a b x

theorem Memory.writeByte_sorted {m : Memory} (h : cellsSorted m.cells) (a : Nat) (b : Byte) :
    cellsSorted (m.writeByte a b).cells := setCell_sorted h a b

end Sys2Proof.Machine
end

