-- ==== Sys2Proof/Laws/Ops.lean ====
section
/-! SUPPORT. What each body of an instruction answers, in one equation on the stack it finds; what a body can change at all
(`BodyEffect`); and the inversion of exec: every next state is a fault's, a body's, or a retirement's. -/

namespace Sys2Proof.Machine

/-! ### The bodies, as equations -/

theorem Frame.binary_eq (op : Word → Word → Word) (f : Frame) :
    f.binary op = match f.stack with
      | b :: a :: rest =>
        if stackMax ≤ rest.length then .error .stackOverflow else .ok { f with stack := op a b :: rest }
      | _ => .error .stackUnderflow := by
  unfold Frame.binary Frame.require Frame.depth
  rcases h : f.stack with _ | ⟨b, _ | ⟨a, rest⟩⟩ <;>
    simp [Frame.pop, Frame.push, Frame.depth, bind, Except.bind, h]
  rfl

theorem Frame.drop_eq (f : Frame) :
    f.drop = match f.stack with
      | _ :: rest => .ok { f with stack := rest }
      | [] => .error .stackUnderflow := by
  unfold Frame.drop Frame.require Frame.depth
  rcases h : f.stack with _ | ⟨v, rest⟩ <;> simp [Frame.pop, bind, Except.bind, pure, Except.pure, h]

theorem Frame.dup_eq {n : Nat} (hn : 1 ≤ n) (f : Frame) :
    f.dup n = match f.stack[n - 1]? with
      | some v => if stackMax ≤ f.depth then .error .stackOverflow else .ok { f with stack := v :: f.stack }
      | none => .error .stackUnderflow := by
  unfold Frame.dup Frame.require
  cases h : f.stack[n - 1]? with
  | none =>
    have : ¬ n ≤ f.depth := by have := List.getElem?_eq_none_iff.mp h; simp [Frame.depth]; omega
    simp [this, bind, Except.bind]
  | some v =>
    have : n ≤ f.depth := by have := (List.getElem?_eq_some_iff.mp h).1; simp [Frame.depth]; omega
    simp [this, Frame.peek, h, Frame.push, bind, Except.bind]

theorem Frame.swap_eq (n : Nat) (f : Frame) :
    f.swap n = match f.stack[0]?, f.stack[n]? with
      | some t, some v => .ok { f with stack := (f.stack.set 0 v).set n t }
      | _, _ => .error .stackUnderflow := by
  unfold Frame.swap Frame.require
  cases h : f.stack[n]? with
  | none =>
    have : ¬ n + 1 ≤ f.depth := by have := List.getElem?_eq_none_iff.mp h; simp [Frame.depth]; omega
    simp [this, bind, Except.bind]
  | some v =>
    have hn := (List.getElem?_eq_some_iff.mp h).1
    have : n + 1 ≤ f.depth := by simp [Frame.depth]; omega
    have h0 : f.stack[0]? = some f.stack[0] := List.getElem?_eq_getElem (by omega)
    simp only [this, h0, Frame.peek, h, Frame.poke, bind, Except.bind, pure, Except.pure, if_true]

theorem Frame.pushImm_eq (n : Nat) (imm : Word) (f : Frame) :
    f.pushImm n imm =
      if f.codeEnd - f.pc < n then .error .truncatedImmediate
      else if stackMax ≤ f.depth then .error .stackOverflow
      else .ok { f with stack := imm :: f.stack, pc := f.pc + n } := by
  unfold Frame.pushImm Frame.push
  split <;> [rfl; (split <;> simp [bind, Except.bind, pure, Except.pure])]

theorem Frame.mstore_eq (memMax : Nat) (f : Frame) :
    f.mstore memMax = match f.stack with
      | offset :: value :: rest =>
        if memMax < low64 offset + 32 then .error .memoryLimit
        else .ok { f with
          stack := rest
          mem := Memory.write { f.mem with len := max f.mem.len (low64 offset + 32) } (low64 offset) (be32 value) }
      | _ => .error .stackUnderflow := by
  unfold Frame.mstore Frame.require Frame.depth
  rcases h : f.stack with _ | ⟨o, _ | ⟨v, rest⟩⟩ <;>
    simp [Frame.pop, bind, Except.bind, pure, Except.pure, h, Memory.grow_eq]
  by_cases hm : memMax < low64 o + 32 <;> simp [hm]

theorem Frame.returnData_eq (memMax : Nat) (f : Frame) :
    f.returnData memMax = match f.stack with
      | offset :: size :: _ =>
        if memMax < low64 offset + low64 size then .error .memoryLimit
        else .ok (f.mem.slice (low64 offset) (low64 size))
      | _ => .error .stackUnderflow := by
  unfold Frame.returnData Frame.require Frame.depth
  rcases h : f.stack with _ | ⟨o, _ | ⟨n, rest⟩⟩ <;>
    simp [Frame.pop, bind, Except.bind, pure, Except.pure, h, Memory.grow_eq, Memory.slice]
  by_cases hm : memMax < low64 o + low64 n <;> simp [hm]

/-! ### What a body can change -/

/-- The body an instruction runs on the current frame; STOP and RETURN, which retire it, have none. -/
def instrBody (memMax : Nat) : Instr → Option (Frame → Except FaultCategory Frame)
  | .stop => none
  | .add => some (Frame.binary mauAdd)
  | .mul => some (Frame.binary mauMul)
  | .sub => some (Frame.binary mauSub)
  | .pop => some Frame.drop
  | .mstore => some (Frame.mstore memMax)
  | .push1 imm => some (Frame.pushImm 1 imm)
  | .push2 imm => some (Frame.pushImm 2 imm)
  | .push3 imm => some (Frame.pushImm 3 imm)
  | .push4 imm => some (Frame.pushImm 4 imm)
  | .push5 imm => some (Frame.pushImm 5 imm)
  | .push6 imm => some (Frame.pushImm 6 imm)
  | .push7 imm => some (Frame.pushImm 7 imm)
  | .push8 imm => some (Frame.pushImm 8 imm)
  | .push9 imm => some (Frame.pushImm 9 imm)
  | .push10 imm => some (Frame.pushImm 10 imm)
  | .push11 imm => some (Frame.pushImm 11 imm)
  | .push12 imm => some (Frame.pushImm 12 imm)
  | .push13 imm => some (Frame.pushImm 13 imm)
  | .push14 imm => some (Frame.pushImm 14 imm)
  | .push15 imm => some (Frame.pushImm 15 imm)
  | .push16 imm => some (Frame.pushImm 16 imm)
  | .push17 imm => some (Frame.pushImm 17 imm)
  | .push18 imm => some (Frame.pushImm 18 imm)
  | .push19 imm => some (Frame.pushImm 19 imm)
  | .push20 imm => some (Frame.pushImm 20 imm)
  | .push21 imm => some (Frame.pushImm 21 imm)
  | .push22 imm => some (Frame.pushImm 22 imm)
  | .push23 imm => some (Frame.pushImm 23 imm)
  | .push24 imm => some (Frame.pushImm 24 imm)
  | .push25 imm => some (Frame.pushImm 25 imm)
  | .push26 imm => some (Frame.pushImm 26 imm)
  | .push27 imm => some (Frame.pushImm 27 imm)
  | .push28 imm => some (Frame.pushImm 28 imm)
  | .push29 imm => some (Frame.pushImm 29 imm)
  | .push30 imm => some (Frame.pushImm 30 imm)
  | .push31 imm => some (Frame.pushImm 31 imm)
  | .push32 imm => some (Frame.pushImm 32 imm)
  | .dup1 => some (Frame.dup 1)
  | .dup2 => some (Frame.dup 2)
  | .dup3 => some (Frame.dup 3)
  | .dup4 => some (Frame.dup 4)
  | .dup5 => some (Frame.dup 5)
  | .dup6 => some (Frame.dup 6)
  | .dup7 => some (Frame.dup 7)
  | .dup8 => some (Frame.dup 8)
  | .dup9 => some (Frame.dup 9)
  | .dup10 => some (Frame.dup 10)
  | .dup11 => some (Frame.dup 11)
  | .dup12 => some (Frame.dup 12)
  | .dup13 => some (Frame.dup 13)
  | .dup14 => some (Frame.dup 14)
  | .dup15 => some (Frame.dup 15)
  | .dup16 => some (Frame.dup 16)
  | .swap1 => some (Frame.swap 1)
  | .swap2 => some (Frame.swap 2)
  | .swap3 => some (Frame.swap 3)
  | .swap4 => some (Frame.swap 4)
  | .swap5 => some (Frame.swap 5)
  | .swap6 => some (Frame.swap 6)
  | .swap7 => some (Frame.swap 7)
  | .swap8 => some (Frame.swap 8)
  | .swap9 => some (Frame.swap 9)
  | .swap10 => some (Frame.swap 10)
  | .swap11 => some (Frame.swap 11)
  | .swap12 => some (Frame.swap 12)
  | .swap13 => some (Frame.swap 13)
  | .swap14 => some (Frame.swap 14)
  | .swap15 => some (Frame.swap 15)
  | .swap16 => some (Frame.swap 16)
  | .ret => none

theorem exec_eq_onFrame {i : Instr} {s : State} {body : Frame → Except FaultCategory Frame}
    (h : instrBody s.config.memMax i = some body) : exec i s = onFrame body s := by
  cases i <;> first | (cases h; rfl) | cases h

/-- What a body leaves of a frame: the constants stay, `pc` moves by the immediate's length, the stack stays within its
capacity, and memory is as before or grown and stored to by MSTORE. -/
structure BodyEffect (memMax : Nat) (i : Instr) (f g : Frame) : Prop where
  code : g.code = f.code
  codeEnd : g.codeEnd = f.codeEnd
  caller : g.caller = f.caller
  gasLeft : g.gasLeft = f.gasLeft
  pc : g.pc = f.pc + immediateBytes i
  inCode : immediateBytes i = 0 ∨ immediateBytes i ≤ f.codeEnd - f.pc
  depth : f.depth ≤ stackMax → g.depth ≤ stackMax
  mem : g.mem = f.mem ∨ ∃ o v, o + 32 ≤ memMax ∧
    g.mem = Memory.write { f.mem with len := max f.mem.len (o + 32) } o (be32 v)

theorem Frame.binary_effect {memMax : Nat} {i : Instr} (hi : immediateBytes i = 0) {op : Word → Word → Word} {f g : Frame}
    (h : f.binary op = .ok g) : BodyEffect memMax i f g := by
  rw [Frame.binary_eq] at h
  split at h
  · split at h
    · cases h
    · next hs hd => cases h; exact ⟨rfl, rfl, rfl, rfl, by simp [hi], .inl hi, fun _ => by simp [Frame.depth]; omega, .inl rfl⟩
  · cases h

theorem Frame.drop_effect {memMax : Nat} {i : Instr} (hi : immediateBytes i = 0) {f g : Frame}
    (h : f.drop = .ok g) : BodyEffect memMax i f g := by
  rw [Frame.drop_eq] at h
  split at h
  · next hs =>
    cases h
    exact ⟨rfl, rfl, rfl, rfl, by simp [hi], .inl hi, fun hd => by simp [Frame.depth, hs] at hd ⊢; omega, .inl rfl⟩
  · cases h

theorem Frame.dup_effect {memMax : Nat} {i : Instr} (hi : immediateBytes i = 0) {n : Nat} (hn : 1 ≤ n) {f g : Frame}
    (h : f.dup n = .ok g) : BodyEffect memMax i f g := by
  rw [Frame.dup_eq hn] at h
  split at h
  · split at h
    · cases h
    · next hd => cases h; exact ⟨rfl, rfl, rfl, rfl, by simp [hi], .inl hi, fun _ => by simp [Frame.depth] at hd ⊢; omega, .inl rfl⟩
  · cases h

theorem Frame.swap_effect {memMax : Nat} {i : Instr} (hi : immediateBytes i = 0) {n : Nat} {f g : Frame}
    (h : f.swap n = .ok g) : BodyEffect memMax i f g := by
  rw [Frame.swap_eq] at h
  split at h
  · cases h; exact ⟨rfl, rfl, rfl, rfl, by simp [hi], .inl hi, fun hd => by simpa [Frame.depth] using hd, .inl rfl⟩
  · cases h

theorem Frame.pushImm_effect {memMax : Nat} {i : Instr} {n : Nat} (hi : immediateBytes i = n) {imm : Word} {f g : Frame}
    (h : f.pushImm n imm = .ok g) : BodyEffect memMax i f g := by
  rw [Frame.pushImm_eq] at h
  split at h
  · cases h
  · split at h
    · cases h
    · next hn hd =>
      cases h
      exact ⟨rfl, rfl, rfl, rfl, by simp [hi], .inr (by omega), fun _ => by simp [Frame.depth] at hd ⊢; omega, .inl rfl⟩

theorem Frame.mstore_effect {memMax : Nat} {i : Instr} (hi : immediateBytes i = 0) {f g : Frame}
    (h : f.mstore memMax = .ok g) : BodyEffect memMax i f g := by
  rw [Frame.mstore_eq] at h
  split at h
  · split at h
    · cases h
    · next o v rest hs hm =>
      cases h
      exact ⟨rfl, rfl, rfl, rfl, by simp [hi], .inl hi, fun hd => by simp [Frame.depth, hs] at hd ⊢; omega,
        .inr ⟨low64 o, v, by omega, rfl⟩⟩
  · cases h

/-- What any body can change. -/
theorem instrBody_effect {memMax : Nat} {i : Instr} {body : Frame → Except FaultCategory Frame} {f g : Frame}
    (hi : instrBody memMax i = some body) (h : body f = .ok g) : BodyEffect memMax i f g := by
  cases i <;> first
    | (cases hi; first
        | exact Frame.binary_effect rfl h
        | exact Frame.drop_effect rfl h
        | exact Frame.dup_effect rfl (by decide) h
        | exact Frame.swap_effect rfl h
        | exact Frame.pushImm_effect rfl h
        | exact Frame.mstore_effect rfl h)
    | cases hi

/-! ### The inversion of exec -/

/-- `onFrame` with a current frame, in one equation. -/
theorem onFrame_of_current {body : Frame → Except FaultCategory Frame} {s : State} {k : Nat} {f : Frame}
    (h : s.Current k f) :
    onFrame body s = match body f with
      | .ok g => .next { s with chain := s.chain.set k g }
      | .error c => .next (s.raise c) := by
  simp only [onFrame, State.frame?_of_current h]
  cases body f with
  | ok g => exact congrArg Host.Outcome.next (State.setFrame_of_current h g)
  | error c => rfl

/-- exec of an instruction that has a body, with a current frame. -/
theorem exec_of_current {i : Instr} {s : State} {k : Nat} {f : Frame} {body : Frame → Except FaultCategory Frame}
    (hb : instrBody s.config.memMax i = some body) (h : s.Current k f) :
    exec i s = match body f with
      | .ok g => .next { s with chain := s.chain.set k g }
      | .error c => .next (s.raise c) := (exec_eq_onFrame hb).trans (onFrame_of_current h)


/-- The next states `onFrame` answers. -/
theorem onFrame_next {body : Frame → Except FaultCategory Frame} {s t : State} (h : onFrame body s = .next t) :
    ∃ f, s.frame? = some f ∧ ((∃ c, body f = .error c ∧ t = s.raise c) ∨ (∃ g, body f = .ok g ∧ t = s.setFrame g)) := by
  unfold onFrame at h
  split at h
  · cases h
  · next f hf =>
    split at h
    · next g hg => cases h; exact ⟨f, hf, .inr ⟨g, hg, rfl⟩⟩
    · next c hc => cases h; exact ⟨f, hf, .inl ⟨c, hc, rfl⟩⟩

/-- Every next state of exec is a fault's, a body's, STOP's retirement, or RETURN's. -/
theorem exec_next {i : Instr} {s t : State} (h : exec i s = .next t) :
    ∃ f, s.frame? = some f ∧
      ((∃ c, t = s.raise c) ∨
       (∃ body g, instrBody s.config.memMax i = some body ∧ body f = .ok g ∧ t = s.setFrame g) ∨
       (i = .stop ∧ t = s.retire f) ∨
       (i = .ret ∧ ∃ d, f.returnData s.config.memMax = .ok d ∧ t = { s with retdata := d }.retire f)) := by
  cases hb : instrBody s.config.memMax i with
  | some body =>
    rw [exec_eq_onFrame hb] at h
    obtain ⟨f, hf, ⟨c, -, ht⟩ | ⟨g, hg, ht⟩⟩ := onFrame_next h
    · exact ⟨f, hf, .inl ⟨c, ht⟩⟩
    · exact ⟨f, hf, .inr (.inl ⟨body, g, rfl, hg, ht⟩)⟩
  | none =>
    have hi : i = .stop ∨ i = .ret := by cases i <;> first | exact .inl rfl | exact .inr rfl | cases hb
    rcases hi with rfl | rfl
    · simp only [exec, execStop] at h
      split at h
      · cases h
      · next f hf => cases h; exact ⟨f, hf, .inr (.inr (.inl ⟨rfl, rfl⟩))⟩
    · simp only [exec, execReturn] at h
      split at h
      · cases h
      · next f hf =>
        split at h
        · next c _ => cases h; exact ⟨f, hf, .inl ⟨c, rfl⟩⟩
        · next d hd => cases h; exact ⟨f, hf, .inr (.inr (.inr ⟨rfl, d, hd, rfl⟩))⟩

/-- With a current frame exec always answers a next state. -/
theorem exec_answers_next {s : State} {f : Frame} (hf : s.frame? = some f) (i : Instr) : ∃ t, exec i s = .next t := by
  cases hb : instrBody s.config.memMax i with
  | some body =>
    rw [exec_eq_onFrame hb]
    unfold onFrame
    simp only [hf]
    split <;> exact ⟨_, rfl⟩
  | none =>
    have hi : i = .stop ∨ i = .ret := by cases i <;> first | exact .inl rfl | exact .inr rfl | cases hb
    rcases hi with rfl | rfl
    · simp [exec, execStop, hf]
    · simp only [exec, execReturn, hf]
      split <;> exact ⟨_, rfl⟩

end Sys2Proof.Machine
end

