-- ==== Sys2Proof/Laws/PerInstr.lean ====
section
/-! SUPPORT. The statements made per instruction (LAWS.json). `EncodedLength`: the bytes of an instruction are its opcode byte
and its immediate bytes (30_encoding R91 to R93). -/

open Sys2Proof.Machine in
/-- The encoding of `i` has 1 byte and the immediate bytes (30_encoding R93). -/
def Sys2Proof.Laws.EncodedLength.Statement (i : Sys2Proof.Instr) : Prop :=
  (Sys2Proof.encode i).length = 1 + immediateBytes i

namespace Sys2Proof.Laws

open Sys2Proof.Machine

theorem EncodedLength.stop : EncodedLength.Statement (.stop) := rfl
theorem EncodedLength.add : EncodedLength.Statement (.add) := rfl
theorem EncodedLength.mul : EncodedLength.Statement (.mul) := rfl
theorem EncodedLength.sub : EncodedLength.Statement (.sub) := rfl
theorem EncodedLength.pop : EncodedLength.Statement (.pop) := rfl
theorem EncodedLength.mstore : EncodedLength.Statement (.mstore) := rfl
theorem EncodedLength.push1 (imm : Word) : EncodedLength.Statement (.push1 imm) := by simp [EncodedLength.Statement, encode, immediateBytes, Machine.beBytes]
theorem EncodedLength.push2 (imm : Word) : EncodedLength.Statement (.push2 imm) := by simp [EncodedLength.Statement, encode, immediateBytes, Machine.beBytes]
theorem EncodedLength.push3 (imm : Word) : EncodedLength.Statement (.push3 imm) := by simp [EncodedLength.Statement, encode, immediateBytes, Machine.beBytes]
theorem EncodedLength.push4 (imm : Word) : EncodedLength.Statement (.push4 imm) := by simp [EncodedLength.Statement, encode, immediateBytes, Machine.beBytes]
theorem EncodedLength.push5 (imm : Word) : EncodedLength.Statement (.push5 imm) := by simp [EncodedLength.Statement, encode, immediateBytes, Machine.beBytes]
theorem EncodedLength.push6 (imm : Word) : EncodedLength.Statement (.push6 imm) := by simp [EncodedLength.Statement, encode, immediateBytes, Machine.beBytes]
theorem EncodedLength.push7 (imm : Word) : EncodedLength.Statement (.push7 imm) := by simp [EncodedLength.Statement, encode, immediateBytes, Machine.beBytes]
theorem EncodedLength.push8 (imm : Word) : EncodedLength.Statement (.push8 imm) := by simp [EncodedLength.Statement, encode, immediateBytes, Machine.beBytes]
theorem EncodedLength.push9 (imm : Word) : EncodedLength.Statement (.push9 imm) := by simp [EncodedLength.Statement, encode, immediateBytes, Machine.beBytes]
theorem EncodedLength.push10 (imm : Word) : EncodedLength.Statement (.push10 imm) := by simp [EncodedLength.Statement, encode, immediateBytes, Machine.beBytes]
theorem EncodedLength.push11 (imm : Word) : EncodedLength.Statement (.push11 imm) := by simp [EncodedLength.Statement, encode, immediateBytes, Machine.beBytes]
theorem EncodedLength.push12 (imm : Word) : EncodedLength.Statement (.push12 imm) := by simp [EncodedLength.Statement, encode, immediateBytes, Machine.beBytes]
theorem EncodedLength.push13 (imm : Word) : EncodedLength.Statement (.push13 imm) := by simp [EncodedLength.Statement, encode, immediateBytes, Machine.beBytes]
theorem EncodedLength.push14 (imm : Word) : EncodedLength.Statement (.push14 imm) := by simp [EncodedLength.Statement, encode, immediateBytes, Machine.beBytes]
theorem EncodedLength.push15 (imm : Word) : EncodedLength.Statement (.push15 imm) := by simp [EncodedLength.Statement, encode, immediateBytes, Machine.beBytes]
theorem EncodedLength.push16 (imm : Word) : EncodedLength.Statement (.push16 imm) := by simp [EncodedLength.Statement, encode, immediateBytes, Machine.beBytes]
theorem EncodedLength.push17 (imm : Word) : EncodedLength.Statement (.push17 imm) := by simp [EncodedLength.Statement, encode, immediateBytes, Machine.beBytes]
theorem EncodedLength.push18 (imm : Word) : EncodedLength.Statement (.push18 imm) := by simp [EncodedLength.Statement, encode, immediateBytes, Machine.beBytes]
theorem EncodedLength.push19 (imm : Word) : EncodedLength.Statement (.push19 imm) := by simp [EncodedLength.Statement, encode, immediateBytes, Machine.beBytes]
theorem EncodedLength.push20 (imm : Word) : EncodedLength.Statement (.push20 imm) := by simp [EncodedLength.Statement, encode, immediateBytes, Machine.beBytes]
theorem EncodedLength.push21 (imm : Word) : EncodedLength.Statement (.push21 imm) := by simp [EncodedLength.Statement, encode, immediateBytes, Machine.beBytes]
theorem EncodedLength.push22 (imm : Word) : EncodedLength.Statement (.push22 imm) := by simp [EncodedLength.Statement, encode, immediateBytes, Machine.beBytes]
theorem EncodedLength.push23 (imm : Word) : EncodedLength.Statement (.push23 imm) := by simp [EncodedLength.Statement, encode, immediateBytes, Machine.beBytes]
theorem EncodedLength.push24 (imm : Word) : EncodedLength.Statement (.push24 imm) := by simp [EncodedLength.Statement, encode, immediateBytes, Machine.beBytes]
theorem EncodedLength.push25 (imm : Word) : EncodedLength.Statement (.push25 imm) := by simp [EncodedLength.Statement, encode, immediateBytes, Machine.beBytes]
theorem EncodedLength.push26 (imm : Word) : EncodedLength.Statement (.push26 imm) := by simp [EncodedLength.Statement, encode, immediateBytes, Machine.beBytes]
theorem EncodedLength.push27 (imm : Word) : EncodedLength.Statement (.push27 imm) := by simp [EncodedLength.Statement, encode, immediateBytes, Machine.beBytes]
theorem EncodedLength.push28 (imm : Word) : EncodedLength.Statement (.push28 imm) := by simp [EncodedLength.Statement, encode, immediateBytes, Machine.beBytes]
theorem EncodedLength.push29 (imm : Word) : EncodedLength.Statement (.push29 imm) := by simp [EncodedLength.Statement, encode, immediateBytes, Machine.beBytes]
theorem EncodedLength.push30 (imm : Word) : EncodedLength.Statement (.push30 imm) := by simp [EncodedLength.Statement, encode, immediateBytes, Machine.beBytes]
theorem EncodedLength.push31 (imm : Word) : EncodedLength.Statement (.push31 imm) := by simp [EncodedLength.Statement, encode, immediateBytes, Machine.beBytes]
theorem EncodedLength.push32 (imm : Word) : EncodedLength.Statement (.push32 imm) := by simp [EncodedLength.Statement, encode, immediateBytes, Machine.beBytes]
theorem EncodedLength.dup1 : EncodedLength.Statement (.dup1) := rfl
theorem EncodedLength.dup2 : EncodedLength.Statement (.dup2) := rfl
theorem EncodedLength.dup3 : EncodedLength.Statement (.dup3) := rfl
theorem EncodedLength.dup4 : EncodedLength.Statement (.dup4) := rfl
theorem EncodedLength.dup5 : EncodedLength.Statement (.dup5) := rfl
theorem EncodedLength.dup6 : EncodedLength.Statement (.dup6) := rfl
theorem EncodedLength.dup7 : EncodedLength.Statement (.dup7) := rfl
theorem EncodedLength.dup8 : EncodedLength.Statement (.dup8) := rfl
theorem EncodedLength.dup9 : EncodedLength.Statement (.dup9) := rfl
theorem EncodedLength.dup10 : EncodedLength.Statement (.dup10) := rfl
theorem EncodedLength.dup11 : EncodedLength.Statement (.dup11) := rfl
theorem EncodedLength.dup12 : EncodedLength.Statement (.dup12) := rfl
theorem EncodedLength.dup13 : EncodedLength.Statement (.dup13) := rfl
theorem EncodedLength.dup14 : EncodedLength.Statement (.dup14) := rfl
theorem EncodedLength.dup15 : EncodedLength.Statement (.dup15) := rfl
theorem EncodedLength.dup16 : EncodedLength.Statement (.dup16) := rfl
theorem EncodedLength.swap1 : EncodedLength.Statement (.swap1) := rfl
theorem EncodedLength.swap2 : EncodedLength.Statement (.swap2) := rfl
theorem EncodedLength.swap3 : EncodedLength.Statement (.swap3) := rfl
theorem EncodedLength.swap4 : EncodedLength.Statement (.swap4) := rfl
theorem EncodedLength.swap5 : EncodedLength.Statement (.swap5) := rfl
theorem EncodedLength.swap6 : EncodedLength.Statement (.swap6) := rfl
theorem EncodedLength.swap7 : EncodedLength.Statement (.swap7) := rfl
theorem EncodedLength.swap8 : EncodedLength.Statement (.swap8) := rfl
theorem EncodedLength.swap9 : EncodedLength.Statement (.swap9) := rfl
theorem EncodedLength.swap10 : EncodedLength.Statement (.swap10) := rfl
theorem EncodedLength.swap11 : EncodedLength.Statement (.swap11) := rfl
theorem EncodedLength.swap12 : EncodedLength.Statement (.swap12) := rfl
theorem EncodedLength.swap13 : EncodedLength.Statement (.swap13) := rfl
theorem EncodedLength.swap14 : EncodedLength.Statement (.swap14) := rfl
theorem EncodedLength.swap15 : EncodedLength.Statement (.swap15) := rfl
theorem EncodedLength.swap16 : EncodedLength.Statement (.swap16) := rfl
theorem EncodedLength.ret : EncodedLength.Statement (.ret) := rfl

end Sys2Proof.Laws
end

