-- ==== Sys2Proof/Laws/Step.lean ====
section
/-! SUPPORT. The inversion of a step: what a step of the machine can do, and when it answers. -/

namespace Sys2Proof.Machine

theorem step_halted {s : State} (h : s.run = .halted) : step s = .next s := by simp [step, loopStep, h]

theorem step_running {s : State} {f : Frame} (hr : s.run = .running) (hf : s.frame? = some f) :
    step s = loopPass s f := by simp [step, loopStep, hr, hf]

/-- Every next state of a step is the state itself (Halted), the retirement at the end of the code, a fault's, or what an
instruction decoded at `pc` makes of the state after fetch. -/
theorem step_next {s t : State} (h : step s = .next t) :
    (s.run = .halted ∧ t = s) ∨
    (s.run = .running ∧ ∃ f, s.frame? = some f ∧
      ((f.pc = f.codeEnd ∧ t = s.retire f) ∨
       (f.pc ≠ f.codeEnd ∧ ∃ c, t = s.raise c) ∨
       (f.pc ≠ f.codeEnd ∧ ∃ i rest, f.fetch = .instr i rest ∧ exec i (s.setFrame f.afterFetch) = .next t))) := by
  unfold step loopStep at h
  split at h
  · next hr => cases h; exact .inl ⟨hr, rfl⟩
  · next hr =>
    split at h
    · cases h
    · next f hf =>
      refine .inr ⟨hr, f, hf, ?_⟩
      unfold loopPass at h
      split at h
      · next he => cases h; exact .inl ⟨he, rfl⟩
      · next he =>
        split at h
        · next i rest hi => exact .inr (.inr ⟨he, i, rest, hi, h⟩)
        · cases h; exact .inr (.inl ⟨he, _, by simp; rfl⟩)
        · cases h; exact .inr (.inl ⟨he, _, by simp; rfl⟩)
        · cases h

/-- What RETURN copies (44 R256). -/
theorem returnData_ok {memMax : Nat} {f : Frame} {d : Memory} (h : f.returnData memMax = .ok d) :
    ∃ o n, o + n ≤ memMax ∧ d = f.mem.slice o n := by
  rw [Frame.returnData_eq] at h
  split at h
  · split at h
    · cases h
    · next o n _ _ _ => cases h; exact ⟨low64 o, low64 n, by omega, rfl⟩
  · cases h

/-- Everything a step of the running machine with the current frame `f` at position `k` can do: a fault, a retirement (by
RETURN with new return data), or a new frame in the place of `f`. -/
theorem step_cases {s t : State} {k : Nat} {f : Frame} (hr : s.run = .running) (hc : s.Current k f)
    (h : step s = .next t) :
    (f.pc ≠ f.codeEnd ∧ ∃ c, t = s.raise c) ∨
    (∃ d, (d = s.retdata ∨ ∃ rest o n, f.fetch = .instr .ret rest ∧ o + n ≤ s.config.memMax ∧ d = f.mem.slice o n) ∧
      t = { s with retdata := d, chain := s.chain.eraseIdx k, cur := f.caller,
                   run := if f.caller = none then .halted else s.run }) ∨
    (f.pc ≠ f.codeEnd ∧ ∃ i rest g, f.fetch = .instr i rest ∧ BodyEffect s.config.memMax i f.afterFetch g ∧
      t = { s with chain := s.chain.set k g }) := by
  rcases step_next h with ⟨h', -⟩ | ⟨-, f', hf, hcase⟩
  · rw [h'] at hr; cases hr
  obtain rfl : f = f' := by rw [State.frame?_of_current hc] at hf; exact Option.some.inj hf
  rcases hcase with ⟨-, rfl⟩ | ⟨hne, c, rfl⟩ | ⟨hne, i, rest, hi, he⟩
  · exact .inr (.inl ⟨_, .inl rfl, State.retire_of_current hc⟩)
  · exact .inl ⟨hne, c, rfl⟩
  have hc' := State.setFrame_current hc f.afterFetch
  have erase : (s.setFrame f.afterFetch).chain.eraseIdx k = s.chain.eraseIdx k := by
    rw [State.setFrame_of_current hc]; exact List.eraseIdx_set_eq
  obtain ⟨f', hf', hcase⟩ := exec_next he
  obtain rfl : f.afterFetch = f' := by rw [State.frame?_of_current hc'] at hf'; exact Option.some.inj hf'
  rcases hcase with ⟨c, rfl⟩ | ⟨body, g, hb, hg, rfl⟩ | ⟨rfl, rfl⟩ | ⟨rfl, d, hd, rfl⟩
  · exact .inl ⟨hne, c, by simp⟩
  · refine .inr (.inr ⟨hne, i, rest, g, hi, ?_, ?_⟩)
    · simpa using instrBody_effect hb hg
    · rw [State.setFrame_setFrame, State.setFrame_of_current hc]
  · refine .inr (.inl ⟨_, .inl rfl, ?_⟩)
    rw [State.retire_of_current hc', erase]; simp [Frame.afterFetch]
  · obtain ⟨o, n, hle, rfl⟩ := returnData_ok hd
    refine .inr (.inl ⟨_, .inr ⟨rest, o, n, hi, by simpa using hle, rfl⟩, ?_⟩)
    refine Eq.trans (State.retire_of_current (i := k) hc') ?_
    simp only [erase]; simp [Frame.afterFetch]

end Sys2Proof.Machine
end

