-- ==== Sys2Proof/Tests/Slice0.lean ====
section
/-! SUPPORT. The model's own tests: ill-formed instructions, every constructor's decoding from bytes written out from the spec's
encodings, one-step tests from spec/95_test_vectors.md (V-C to V-K), and for each statement with hypotheses a concrete witness
that meets them. Stacks are written top first. -/

namespace Sys2Proof.Tests

open Sys2Proof Sys2Proof.Machine

/-! ### Helpers -/

/-- The next state, where there is one. -/
def nextOf : Result → Option State
  | .next s => some s
  | .fault _ => none
  | .refused _ => none

/-- A root frame at the start of its code. -/
def rootFrame (code : List Byte) (stack : List Word) : Frame :=
  { stack := stack, mem := Memory.empty, pc := 0, codeEnd := code.length, code := code, gasLeft := 7, caller := none }

/-- The running machine with one frame. -/
def running (f : Frame) : State :=
  { chain := [f], cur := some 0, retdata := { len := 2, cells := [(1, 0xBB#8)] }, moduleHandle := 3, stackMgr := 4,
    run := .running, fault := none, config := Config.default }

/-- The same with a small `MEM_MAX`. -/
def running1k (f : Frame) : State :=
  { running f with config := { memMax := 1024, codeMax := 64, maxFrames := 2, gasBits := 8 } }

/-- The stack, `pc` and memory of the current frame after a step. -/
def frameAfter (s : State) : Option (List Word × Nat × Memory) :=
  (nextOf (step s)).bind fun t => t.frame?.map fun f => (f.stack, f.pc, f.mem)

/-- The fault register, loop state, number of frames and return data after a step. -/
def endAfter (s : State) : Option (Option FaultCategory × RunState × Nat × Memory) :=
  (nextOf (step s)).map fun t => (t.fault, t.run, t.nframes, t.retdata)

/-- The return data that `running` starts with. -/
def oldData : Memory := { len := 2, cells := [(1, 0xBB#8)] }

/-! ### Ill-formed instructions are refused (42_push R201(c)) -/

theorem test_illformed_push1 : (Instr.push1 (BitVec.ofNat 256 (2 ^ 8))).wellFormed = false := by decide
theorem test_illformed_push2 : (Instr.push2 (BitVec.ofNat 256 (2 ^ 16))).wellFormed = false := by decide
theorem test_illformed_push3 : (Instr.push3 (BitVec.ofNat 256 (2 ^ 24))).wellFormed = false := by decide
theorem test_illformed_push4 : (Instr.push4 (BitVec.ofNat 256 (2 ^ 32))).wellFormed = false := by decide
theorem test_illformed_push5 : (Instr.push5 (BitVec.ofNat 256 (2 ^ 40))).wellFormed = false := by decide
theorem test_illformed_push6 : (Instr.push6 (BitVec.ofNat 256 (2 ^ 48))).wellFormed = false := by decide
theorem test_illformed_push7 : (Instr.push7 (BitVec.ofNat 256 (2 ^ 56))).wellFormed = false := by decide
theorem test_illformed_push8 : (Instr.push8 (BitVec.ofNat 256 (2 ^ 64))).wellFormed = false := by decide
theorem test_illformed_push9 : (Instr.push9 (BitVec.ofNat 256 (2 ^ 72))).wellFormed = false := by decide
theorem test_illformed_push10 : (Instr.push10 (BitVec.ofNat 256 (2 ^ 80))).wellFormed = false := by decide
theorem test_illformed_push11 : (Instr.push11 (BitVec.ofNat 256 (2 ^ 88))).wellFormed = false := by decide
theorem test_illformed_push12 : (Instr.push12 (BitVec.ofNat 256 (2 ^ 96))).wellFormed = false := by decide
theorem test_illformed_push13 : (Instr.push13 (BitVec.ofNat 256 (2 ^ 104))).wellFormed = false := by decide
theorem test_illformed_push14 : (Instr.push14 (BitVec.ofNat 256 (2 ^ 112))).wellFormed = false := by decide
theorem test_illformed_push15 : (Instr.push15 (BitVec.ofNat 256 (2 ^ 120))).wellFormed = false := by decide
theorem test_illformed_push16 : (Instr.push16 (BitVec.ofNat 256 (2 ^ 128))).wellFormed = false := by decide
theorem test_illformed_push17 : (Instr.push17 (BitVec.ofNat 256 (2 ^ 136))).wellFormed = false := by decide
theorem test_illformed_push18 : (Instr.push18 (BitVec.ofNat 256 (2 ^ 144))).wellFormed = false := by decide
theorem test_illformed_push19 : (Instr.push19 (BitVec.ofNat 256 (2 ^ 152))).wellFormed = false := by decide
theorem test_illformed_push20 : (Instr.push20 (BitVec.ofNat 256 (2 ^ 160))).wellFormed = false := by decide
theorem test_illformed_push21 : (Instr.push21 (BitVec.ofNat 256 (2 ^ 168))).wellFormed = false := by decide
theorem test_illformed_push22 : (Instr.push22 (BitVec.ofNat 256 (2 ^ 176))).wellFormed = false := by decide
theorem test_illformed_push23 : (Instr.push23 (BitVec.ofNat 256 (2 ^ 184))).wellFormed = false := by decide
theorem test_illformed_push24 : (Instr.push24 (BitVec.ofNat 256 (2 ^ 192))).wellFormed = false := by decide
theorem test_illformed_push25 : (Instr.push25 (BitVec.ofNat 256 (2 ^ 200))).wellFormed = false := by decide
theorem test_illformed_push26 : (Instr.push26 (BitVec.ofNat 256 (2 ^ 208))).wellFormed = false := by decide
theorem test_illformed_push27 : (Instr.push27 (BitVec.ofNat 256 (2 ^ 216))).wellFormed = false := by decide
theorem test_illformed_push28 : (Instr.push28 (BitVec.ofNat 256 (2 ^ 224))).wellFormed = false := by decide
theorem test_illformed_push29 : (Instr.push29 (BitVec.ofNat 256 (2 ^ 232))).wellFormed = false := by decide
theorem test_illformed_push30 : (Instr.push30 (BitVec.ofNat 256 (2 ^ 240))).wellFormed = false := by decide
theorem test_illformed_push31 : (Instr.push31 (BitVec.ofNat 256 (2 ^ 248))).wellFormed = false := by decide

/-! ### Decoding, from the bytes of 30_encoding R98 to R101 -/

/-- R98, the table of single opcodes. -/
theorem test_decode_single :
    decode [0x00#8] = .instr .stop [] ∧ decode [0x01#8] = .instr .add [] ∧ decode [0x02#8] = .instr .mul [] ∧
    decode [0x03#8] = .instr .sub [] ∧ decode [0x50#8] = .instr .pop [] ∧ decode [0x52#8] = .instr .mstore [] ∧
    decode [0xF3#8] = .instr .ret [] := by decide

/-- R99, PUSH1 to PUSH8, immediate bytes 01 02 03 … and a byte after them. -/
theorem test_decode_push1_to_push8 :
    decode (0x60#8 :: [0x01#8] ++ [0x55#8]) =
      .instr (.push1 0x1#256) [0x55#8] ∧
    decode (0x61#8 :: [0x01#8, 0x02#8] ++ [0x55#8]) =
      .instr (.push2 0x102#256) [0x55#8] ∧
    decode (0x62#8 :: [0x01#8, 0x02#8, 0x03#8] ++ [0x55#8]) =
      .instr (.push3 0x10203#256) [0x55#8] ∧
    decode (0x63#8 :: [0x01#8, 0x02#8, 0x03#8, 0x04#8] ++ [0x55#8]) =
      .instr (.push4 0x1020304#256) [0x55#8] ∧
    decode (0x64#8 :: [0x01#8, 0x02#8, 0x03#8, 0x04#8, 0x05#8] ++ [0x55#8]) =
      .instr (.push5 0x102030405#256) [0x55#8] ∧
    decode (0x65#8 :: [0x01#8, 0x02#8, 0x03#8, 0x04#8, 0x05#8, 0x06#8] ++ [0x55#8]) =
      .instr (.push6 0x10203040506#256) [0x55#8] ∧
    decode (0x66#8 :: [0x01#8, 0x02#8, 0x03#8, 0x04#8, 0x05#8, 0x06#8, 0x07#8] ++ [0x55#8]) =
      .instr (.push7 0x1020304050607#256) [0x55#8] ∧
    decode (0x67#8 :: [0x01#8, 0x02#8, 0x03#8, 0x04#8, 0x05#8, 0x06#8, 0x07#8, 0x08#8] ++ [0x55#8]) =
      .instr (.push8 0x102030405060708#256) [0x55#8] := by decide

/-- R99, PUSH9 to PUSH16, immediate bytes 01 02 03 … and a byte after them. -/
theorem test_decode_push9_to_push16 :
    decode (0x68#8 :: [0x01#8, 0x02#8, 0x03#8, 0x04#8, 0x05#8, 0x06#8, 0x07#8, 0x08#8, 0x09#8] ++ [0x55#8]) =
      .instr (.push9 0x10203040506070809#256) [0x55#8] ∧
    decode (0x69#8 :: [0x01#8, 0x02#8, 0x03#8, 0x04#8, 0x05#8, 0x06#8, 0x07#8, 0x08#8, 0x09#8, 0x0A#8] ++ [0x55#8]) =
      .instr (.push10 0x102030405060708090A#256) [0x55#8] ∧
    decode (0x6A#8 :: [0x01#8, 0x02#8, 0x03#8, 0x04#8, 0x05#8, 0x06#8, 0x07#8, 0x08#8, 0x09#8, 0x0A#8, 0x0B#8] ++ [0x55#8]) =
      .instr (.push11 0x102030405060708090A0B#256) [0x55#8] ∧
    decode (0x6B#8 :: [0x01#8, 0x02#8, 0x03#8, 0x04#8, 0x05#8, 0x06#8, 0x07#8, 0x08#8, 0x09#8, 0x0A#8, 0x0B#8, 0x0C#8] ++ [0x55#8]) =
      .instr (.push12 0x102030405060708090A0B0C#256) [0x55#8] ∧
    decode (0x6C#8 :: [0x01#8, 0x02#8, 0x03#8, 0x04#8, 0x05#8, 0x06#8, 0x07#8, 0x08#8, 0x09#8, 0x0A#8, 0x0B#8, 0x0C#8, 0x0D#8] ++ [0x55#8]) =
      .instr (.push13 0x102030405060708090A0B0C0D#256) [0x55#8] ∧
    decode (0x6D#8 :: [0x01#8, 0x02#8, 0x03#8, 0x04#8, 0x05#8, 0x06#8, 0x07#8, 0x08#8, 0x09#8, 0x0A#8, 0x0B#8, 0x0C#8, 0x0D#8, 0x0E#8] ++ [0x55#8]) =
      .instr (.push14 0x102030405060708090A0B0C0D0E#256) [0x55#8] ∧
    decode (0x6E#8 :: [0x01#8, 0x02#8, 0x03#8, 0x04#8, 0x05#8, 0x06#8, 0x07#8, 0x08#8, 0x09#8, 0x0A#8, 0x0B#8, 0x0C#8, 0x0D#8, 0x0E#8, 0x0F#8] ++ [0x55#8]) =
      .instr (.push15 0x102030405060708090A0B0C0D0E0F#256) [0x55#8] ∧
    decode (0x6F#8 :: [0x01#8, 0x02#8, 0x03#8, 0x04#8, 0x05#8, 0x06#8, 0x07#8, 0x08#8, 0x09#8, 0x0A#8, 0x0B#8, 0x0C#8, 0x0D#8, 0x0E#8, 0x0F#8, 0x10#8] ++ [0x55#8]) =
      .instr (.push16 0x102030405060708090A0B0C0D0E0F10#256) [0x55#8] := by decide

/-- R99, PUSH17 to PUSH24, immediate bytes 01 02 03 … and a byte after them. -/
theorem test_decode_push17_to_push24 :
    decode (0x70#8 :: [0x01#8, 0x02#8, 0x03#8, 0x04#8, 0x05#8, 0x06#8, 0x07#8, 0x08#8, 0x09#8, 0x0A#8, 0x0B#8, 0x0C#8, 0x0D#8, 0x0E#8, 0x0F#8, 0x10#8, 0x11#8] ++ [0x55#8]) =
      .instr (.push17 0x102030405060708090A0B0C0D0E0F1011#256) [0x55#8] ∧
    decode (0x71#8 :: [0x01#8, 0x02#8, 0x03#8, 0x04#8, 0x05#8, 0x06#8, 0x07#8, 0x08#8, 0x09#8, 0x0A#8, 0x0B#8, 0x0C#8, 0x0D#8, 0x0E#8, 0x0F#8, 0x10#8, 0x11#8, 0x12#8] ++ [0x55#8]) =
      .instr (.push18 0x102030405060708090A0B0C0D0E0F101112#256) [0x55#8] ∧
    decode (0x72#8 :: [0x01#8, 0x02#8, 0x03#8, 0x04#8, 0x05#8, 0x06#8, 0x07#8, 0x08#8, 0x09#8, 0x0A#8, 0x0B#8, 0x0C#8, 0x0D#8, 0x0E#8, 0x0F#8, 0x10#8, 0x11#8, 0x12#8, 0x13#8] ++ [0x55#8]) =
      .instr (.push19 0x102030405060708090A0B0C0D0E0F10111213#256) [0x55#8] ∧
    decode (0x73#8 :: [0x01#8, 0x02#8, 0x03#8, 0x04#8, 0x05#8, 0x06#8, 0x07#8, 0x08#8, 0x09#8, 0x0A#8, 0x0B#8, 0x0C#8, 0x0D#8, 0x0E#8, 0x0F#8, 0x10#8, 0x11#8, 0x12#8, 0x13#8, 0x14#8] ++ [0x55#8]) =
      .instr (.push20 0x102030405060708090A0B0C0D0E0F1011121314#256) [0x55#8] ∧
    decode (0x74#8 :: [0x01#8, 0x02#8, 0x03#8, 0x04#8, 0x05#8, 0x06#8, 0x07#8, 0x08#8, 0x09#8, 0x0A#8, 0x0B#8, 0x0C#8, 0x0D#8, 0x0E#8, 0x0F#8, 0x10#8, 0x11#8, 0x12#8, 0x13#8, 0x14#8, 0x15#8] ++ [0x55#8]) =
      .instr (.push21 0x102030405060708090A0B0C0D0E0F101112131415#256) [0x55#8] ∧
    decode (0x75#8 :: [0x01#8, 0x02#8, 0x03#8, 0x04#8, 0x05#8, 0x06#8, 0x07#8, 0x08#8, 0x09#8, 0x0A#8, 0x0B#8, 0x0C#8, 0x0D#8, 0x0E#8, 0x0F#8, 0x10#8, 0x11#8, 0x12#8, 0x13#8, 0x14#8, 0x15#8, 0x16#8] ++ [0x55#8]) =
      .instr (.push22 0x102030405060708090A0B0C0D0E0F10111213141516#256) [0x55#8] ∧
    decode (0x76#8 :: [0x01#8, 0x02#8, 0x03#8, 0x04#8, 0x05#8, 0x06#8, 0x07#8, 0x08#8, 0x09#8, 0x0A#8, 0x0B#8, 0x0C#8, 0x0D#8, 0x0E#8, 0x0F#8, 0x10#8, 0x11#8, 0x12#8, 0x13#8, 0x14#8, 0x15#8, 0x16#8, 0x17#8] ++ [0x55#8]) =
      .instr (.push23 0x102030405060708090A0B0C0D0E0F1011121314151617#256) [0x55#8] ∧
    decode (0x77#8 :: [0x01#8, 0x02#8, 0x03#8, 0x04#8, 0x05#8, 0x06#8, 0x07#8, 0x08#8, 0x09#8, 0x0A#8, 0x0B#8, 0x0C#8, 0x0D#8, 0x0E#8, 0x0F#8, 0x10#8, 0x11#8, 0x12#8, 0x13#8, 0x14#8, 0x15#8, 0x16#8, 0x17#8, 0x18#8] ++ [0x55#8]) =
      .instr (.push24 0x102030405060708090A0B0C0D0E0F101112131415161718#256) [0x55#8] := by decide

/-- R99, PUSH25 to PUSH32, immediate bytes 01 02 03 … and a byte after them. -/
theorem test_decode_push25_to_push32 :
    decode (0x78#8 :: [0x01#8, 0x02#8, 0x03#8, 0x04#8, 0x05#8, 0x06#8, 0x07#8, 0x08#8, 0x09#8, 0x0A#8, 0x0B#8, 0x0C#8, 0x0D#8, 0x0E#8, 0x0F#8, 0x10#8, 0x11#8, 0x12#8, 0x13#8, 0x14#8, 0x15#8, 0x16#8, 0x17#8, 0x18#8, 0x19#8] ++ [0x55#8]) =
      .instr (.push25 0x102030405060708090A0B0C0D0E0F10111213141516171819#256) [0x55#8] ∧
    decode (0x79#8 :: [0x01#8, 0x02#8, 0x03#8, 0x04#8, 0x05#8, 0x06#8, 0x07#8, 0x08#8, 0x09#8, 0x0A#8, 0x0B#8, 0x0C#8, 0x0D#8, 0x0E#8, 0x0F#8, 0x10#8, 0x11#8, 0x12#8, 0x13#8, 0x14#8, 0x15#8, 0x16#8, 0x17#8, 0x18#8, 0x19#8, 0x1A#8] ++ [0x55#8]) =
      .instr (.push26 0x102030405060708090A0B0C0D0E0F101112131415161718191A#256) [0x55#8] ∧
    decode (0x7A#8 :: [0x01#8, 0x02#8, 0x03#8, 0x04#8, 0x05#8, 0x06#8, 0x07#8, 0x08#8, 0x09#8, 0x0A#8, 0x0B#8, 0x0C#8, 0x0D#8, 0x0E#8, 0x0F#8, 0x10#8, 0x11#8, 0x12#8, 0x13#8, 0x14#8, 0x15#8, 0x16#8, 0x17#8, 0x18#8, 0x19#8, 0x1A#8, 0x1B#8] ++ [0x55#8]) =
      .instr (.push27 0x102030405060708090A0B0C0D0E0F101112131415161718191A1B#256) [0x55#8] ∧
    decode (0x7B#8 :: [0x01#8, 0x02#8, 0x03#8, 0x04#8, 0x05#8, 0x06#8, 0x07#8, 0x08#8, 0x09#8, 0x0A#8, 0x0B#8, 0x0C#8, 0x0D#8, 0x0E#8, 0x0F#8, 0x10#8, 0x11#8, 0x12#8, 0x13#8, 0x14#8, 0x15#8, 0x16#8, 0x17#8, 0x18#8, 0x19#8, 0x1A#8, 0x1B#8, 0x1C#8] ++ [0x55#8]) =
      .instr (.push28 0x102030405060708090A0B0C0D0E0F101112131415161718191A1B1C#256) [0x55#8] ∧
    decode (0x7C#8 :: [0x01#8, 0x02#8, 0x03#8, 0x04#8, 0x05#8, 0x06#8, 0x07#8, 0x08#8, 0x09#8, 0x0A#8, 0x0B#8, 0x0C#8, 0x0D#8, 0x0E#8, 0x0F#8, 0x10#8, 0x11#8, 0x12#8, 0x13#8, 0x14#8, 0x15#8, 0x16#8, 0x17#8, 0x18#8, 0x19#8, 0x1A#8, 0x1B#8, 0x1C#8, 0x1D#8] ++ [0x55#8]) =
      .instr (.push29 0x102030405060708090A0B0C0D0E0F101112131415161718191A1B1C1D#256) [0x55#8] ∧
    decode (0x7D#8 :: [0x01#8, 0x02#8, 0x03#8, 0x04#8, 0x05#8, 0x06#8, 0x07#8, 0x08#8, 0x09#8, 0x0A#8, 0x0B#8, 0x0C#8, 0x0D#8, 0x0E#8, 0x0F#8, 0x10#8, 0x11#8, 0x12#8, 0x13#8, 0x14#8, 0x15#8, 0x16#8, 0x17#8, 0x18#8, 0x19#8, 0x1A#8, 0x1B#8, 0x1C#8, 0x1D#8, 0x1E#8] ++ [0x55#8]) =
      .instr (.push30 0x102030405060708090A0B0C0D0E0F101112131415161718191A1B1C1D1E#256) [0x55#8] ∧
    decode (0x7E#8 :: [0x01#8, 0x02#8, 0x03#8, 0x04#8, 0x05#8, 0x06#8, 0x07#8, 0x08#8, 0x09#8, 0x0A#8, 0x0B#8, 0x0C#8, 0x0D#8, 0x0E#8, 0x0F#8, 0x10#8, 0x11#8, 0x12#8, 0x13#8, 0x14#8, 0x15#8, 0x16#8, 0x17#8, 0x18#8, 0x19#8, 0x1A#8, 0x1B#8, 0x1C#8, 0x1D#8, 0x1E#8, 0x1F#8] ++ [0x55#8]) =
      .instr (.push31 0x102030405060708090A0B0C0D0E0F101112131415161718191A1B1C1D1E1F#256) [0x55#8] ∧
    decode (0x7F#8 :: [0x01#8, 0x02#8, 0x03#8, 0x04#8, 0x05#8, 0x06#8, 0x07#8, 0x08#8, 0x09#8, 0x0A#8, 0x0B#8, 0x0C#8, 0x0D#8, 0x0E#8, 0x0F#8, 0x10#8, 0x11#8, 0x12#8, 0x13#8, 0x14#8, 0x15#8, 0x16#8, 0x17#8, 0x18#8, 0x19#8, 0x1A#8, 0x1B#8, 0x1C#8, 0x1D#8, 0x1E#8, 0x1F#8, 0x20#8] ++ [0x55#8]) =
      .instr (.push32 0x102030405060708090A0B0C0D0E0F101112131415161718191A1B1C1D1E1F20#256) [0x55#8] := by decide

/-- R100. -/
theorem test_decode_dup1_to_dup8 :
    decode [0x80#8, 0x01#8] = .instr .dup1 [0x01#8] ∧
    decode [0x81#8, 0x01#8] = .instr .dup2 [0x01#8] ∧
    decode [0x82#8, 0x01#8] = .instr .dup3 [0x01#8] ∧
    decode [0x83#8, 0x01#8] = .instr .dup4 [0x01#8] ∧
    decode [0x84#8, 0x01#8] = .instr .dup5 [0x01#8] ∧
    decode [0x85#8, 0x01#8] = .instr .dup6 [0x01#8] ∧
    decode [0x86#8, 0x01#8] = .instr .dup7 [0x01#8] ∧
    decode [0x87#8, 0x01#8] = .instr .dup8 [0x01#8] := by decide

/-- R100. -/
theorem test_decode_dup9_to_dup16 :
    decode [0x88#8, 0x01#8] = .instr .dup9 [0x01#8] ∧
    decode [0x89#8, 0x01#8] = .instr .dup10 [0x01#8] ∧
    decode [0x8A#8, 0x01#8] = .instr .dup11 [0x01#8] ∧
    decode [0x8B#8, 0x01#8] = .instr .dup12 [0x01#8] ∧
    decode [0x8C#8, 0x01#8] = .instr .dup13 [0x01#8] ∧
    decode [0x8D#8, 0x01#8] = .instr .dup14 [0x01#8] ∧
    decode [0x8E#8, 0x01#8] = .instr .dup15 [0x01#8] ∧
    decode [0x8F#8, 0x01#8] = .instr .dup16 [0x01#8] := by decide

/-- R101. -/
theorem test_decode_swap1_to_swap8 :
    decode [0x90#8, 0x01#8] = .instr .swap1 [0x01#8] ∧
    decode [0x91#8, 0x01#8] = .instr .swap2 [0x01#8] ∧
    decode [0x92#8, 0x01#8] = .instr .swap3 [0x01#8] ∧
    decode [0x93#8, 0x01#8] = .instr .swap4 [0x01#8] ∧
    decode [0x94#8, 0x01#8] = .instr .swap5 [0x01#8] ∧
    decode [0x95#8, 0x01#8] = .instr .swap6 [0x01#8] ∧
    decode [0x96#8, 0x01#8] = .instr .swap7 [0x01#8] ∧
    decode [0x97#8, 0x01#8] = .instr .swap8 [0x01#8] := by decide

/-- R101. -/
theorem test_decode_swap9_to_swap16 :
    decode [0x98#8, 0x01#8] = .instr .swap9 [0x01#8] ∧
    decode [0x99#8, 0x01#8] = .instr .swap10 [0x01#8] ∧
    decode [0x9A#8, 0x01#8] = .instr .swap11 [0x01#8] ∧
    decode [0x9B#8, 0x01#8] = .instr .swap12 [0x01#8] ∧
    decode [0x9C#8, 0x01#8] = .instr .swap13 [0x01#8] ∧
    decode [0x9D#8, 0x01#8] = .instr .swap14 [0x01#8] ∧
    decode [0x9E#8, 0x01#8] = .instr .swap15 [0x01#8] ∧
    decode [0x9F#8, 0x01#8] = .instr .swap16 [0x01#8] := by decide

/-- R104 and R106: the bytes at the edges of the unsupported ranges, and a truncated PUSH32. -/
theorem test_decode_refused :
    decode [0x04#8] = .unsupported 0x04#8 ∧ decode [0x4F#8] = .unsupported 0x4F#8 ∧ decode [0x51#8] = .unsupported 0x51#8 ∧
    decode [0x53#8] = .unsupported 0x53#8 ∧ decode [0x5F#8] = .unsupported 0x5F#8 ∧ decode [0xA0#8] = .unsupported 0xA0#8 ∧
    decode [0xF2#8] = .unsupported 0xF2#8 ∧ decode [0xF4#8] = .unsupported 0xF4#8 ∧ decode [0xFF#8] = .unsupported 0xFF#8 ∧
    decode (0x7F#8 :: List.replicate 31 0#8) = .truncated 32 ∧ decode [] = .endOfBytes := by decide

/-- V-I: the listing of the source's first program; V-I: an immediate is not decoded. -/
theorem test_disassemble :
    disassemble [0x60#8, 0x2A#8, 0x60#8, 0x00#8, 0x52#8, 0x60#8, 0x20#8, 0x60#8, 0x00#8, 0xF3#8] =
      some [.push1 0x2A, .push1 0, .mstore, .push1 0x20, .push1 0, .ret] ∧
    disassemble [0x61#8, 0x60#8, 0x00#8, 0x00#8] = some [.push2 0x6000, .stop] := by decide

/-- The host's two questions, on PUSH2 with the immediate 0x1234 (first byte the opcode). -/
theorem test_table_word :
    decodeTableWord 24 0x341261 = some (.push2 0x1234) ∧ decodeTableWord 8 0x7F = some (.push32 0) ∧
    decodeTableWord 8 0x04 = none ∧
    frameAfter (State.reset.withFetchWord 24 0x341261) = some ([0x1234], 3, Memory.empty) := by decide

/-! ### One step of each instruction -/

/-- V-C3, with an entry below. -/
theorem test_add_wraps :
    frameAfter (running (rootFrame [0x01#8] [1, BitVec.allOnes 256, 9])) = some ([0, 9], 1, Memory.empty) := by decide

/-- V-C16. -/
theorem test_add_needs_two :
    endAfter (running (rootFrame [0x01#8] [1])) = some (some .stackUnderflow, .halted, 0, oldData) := by decide

/-- V-C6. -/
theorem test_mul_wraps :
    frameAfter (running (rootFrame [0x02#8] [BitVec.allOnes 256, BitVec.allOnes 256])) = some ([1], 1, Memory.empty) := by decide

/-- V-C18. -/
theorem test_mul_needs_two :
    endAfter (running (rootFrame [0x02#8] [1])) = some (some .stackUnderflow, .halted, 0, oldData) := by decide

/-- V-C10: bottom to top 3, 5. -/
theorem test_sub_second_minus_top :
    frameAfter (running (rootFrame [0x03#8] [5, 3])) = some ([BitVec.ofNat 256 (2 ^ 256 - 2)], 1, Memory.empty) := by decide

/-- V-C19. -/
theorem test_sub_needs_two :
    endAfter (running (rootFrame [0x03#8] [])) = some (some .stackUnderflow, .halted, 0, oldData) := by decide

/-- V-D2. -/
theorem test_pop :
    frameAfter (running (rootFrame [0x50#8] [9, 7])) = some ([7], 1, Memory.empty) := by decide

/-- V-D3. -/
theorem test_pop_empty :
    endAfter (running (rootFrame [0x50#8] [])) = some (some .stackUnderflow, .halted, 0, oldData) := by decide

/-- V-F1. -/
theorem test_mstore :
    frameAfter (running (rootFrame [0x52#8] [0, 0x2A])) = some ([], 1, { len := 32, cells := [(31, 0x2A#8)] }) := by decide

/-- V-F13. -/
theorem test_mstore_limit :
    endAfter (running1k (rootFrame [0x52#8] [0x3E1, 1])) = some (some .memoryLimit, .halted, 0, oldData) := by decide

/-- V-G4: a slice past the end of the memory reads as zeros there, and the root retires. -/
theorem test_return :
    endAfter (running { rootFrame [0xF3#8] [6, 4] with mem := { len := 8, cells := [(6, 0xA6#8), (7, 0xA7#8)] } }) =
      some (none, .halted, 0, { len := 4, cells := [(0, 0xA6#8), (1, 0xA7#8)] }) := by decide

/-- V-G11: the test of the length also for a size of 0. -/
theorem test_return_limit :
    endAfter (running1k (rootFrame [0xF3#8] [0x7D0, 0])) = some (some .memoryLimit, .halted, 0, oldData) := by decide

/-- V-H1: STOP retires the root; the return data stays. -/
theorem test_stop : endAfter (running (rootFrame [0x00#8] [5])) = some (none, .halted, 0, oldData) := by decide

/-- V-H3: empty code. -/
theorem test_end_of_code : endAfter (running (rootFrame [] [5])) = some (none, .halted, 0, oldData) := by decide

/-- V-H10. -/
theorem test_unsupported :
    endAfter (running (rootFrame [0x51#8] [2, 1])) = some (some .unsupportedOpcode, .halted, 0, oldData) := by decide

/-- V-E12. -/
theorem test_push_truncated :
    endAfter (running (rootFrame [0x61#8, 0x01#8] [])) = some (some .truncatedImmediate, .halted, 0, oldData) := by decide

/-- V-J3: a fault in the current frame releases its caller too. -/
theorem test_fault_releases_chain :
    endAfter { running (rootFrame [0x00#8] []) with
      chain := [rootFrame [0x00#8] [], { rootFrame [0x01#8] [] with caller := some 0 }], cur := some 1 } =
      some (some .stackUnderflow, .halted, 0, oldData) := by decide

/-- P6, step 6: when the frame above retires, its caller is current at its own `pc`. -/
theorem test_caller_resumes :
    frameAfter { running (rootFrame [0x00#8] []) with
      chain := [rootFrame [0x60#8, 0xAA#8] [8], { rootFrame [0x00#8] [1] with caller := some 0 }], cur := some 1 } =
      some ([8], 0, Memory.empty) := by decide

/-- A step on PUSH with these immediate bytes leaves `v` on the stack `[9]` and `pc` at the end of the code. -/
def pushes (op : Byte) (imm : List Byte) (v : Word) : Bool :=
  decide (frameAfter (running (rootFrame (op :: imm) [9])) = some ([v, 9], imm.length + 1, Memory.empty))

/-- R202 to R233: PUSH1 to PUSH8 push the value of the bytes and leave `pc` behind them. -/
theorem test_push1_to_push8 :
    pushes 0x60#8 [0x80#8]
      0x80#256 = true ∧
    pushes 0x61#8 [0x80#8, 0x02#8]
      0x8002#256 = true ∧
    pushes 0x62#8 [0x80#8, 0x00#8, 0x03#8]
      0x800003#256 = true ∧
    pushes 0x63#8 [0x80#8, 0x00#8, 0x00#8, 0x04#8]
      0x80000004#256 = true ∧
    pushes 0x64#8 [0x80#8, 0x00#8, 0x00#8, 0x00#8, 0x05#8]
      0x8000000005#256 = true ∧
    pushes 0x65#8 [0x80#8, 0x00#8, 0x00#8, 0x00#8, 0x00#8, 0x06#8]
      0x800000000006#256 = true ∧
    pushes 0x66#8 [0x80#8, 0x00#8, 0x00#8, 0x00#8, 0x00#8, 0x00#8, 0x07#8]
      0x80000000000007#256 = true ∧
    pushes 0x67#8 [0x80#8, 0x00#8, 0x00#8, 0x00#8, 0x00#8, 0x00#8, 0x00#8, 0x08#8]
      0x8000000000000008#256 = true := by decide

/-- R202 to R233: PUSH9 to PUSH16 push the value of the bytes and leave `pc` behind them. -/
theorem test_push9_to_push16 :
    pushes 0x68#8 [0x80#8, 0x00#8, 0x00#8, 0x00#8, 0x00#8, 0x00#8, 0x00#8, 0x00#8, 0x09#8]
      0x800000000000000009#256 = true ∧
    pushes 0x69#8 [0x80#8, 0x00#8, 0x00#8, 0x00#8, 0x00#8, 0x00#8, 0x00#8, 0x00#8, 0x00#8, 0x0A#8]
      0x8000000000000000000A#256 = true ∧
    pushes 0x6A#8 [0x80#8, 0x00#8, 0x00#8, 0x00#8, 0x00#8, 0x00#8, 0x00#8, 0x00#8, 0x00#8, 0x00#8, 0x0B#8]
      0x800000000000000000000B#256 = true ∧
    pushes 0x6B#8 [0x80#8, 0x00#8, 0x00#8, 0x00#8, 0x00#8, 0x00#8, 0x00#8, 0x00#8, 0x00#8, 0x00#8, 0x00#8, 0x0C#8]
      0x80000000000000000000000C#256 = true ∧
    pushes 0x6C#8 [0x80#8, 0x00#8, 0x00#8, 0x00#8, 0x00#8, 0x00#8, 0x00#8, 0x00#8, 0x00#8, 0x00#8, 0x00#8, 0x00#8, 0x0D#8]
      0x8000000000000000000000000D#256 = true ∧
    pushes 0x6D#8 [0x80#8, 0x00#8, 0x00#8, 0x00#8, 0x00#8, 0x00#8, 0x00#8, 0x00#8, 0x00#8, 0x00#8, 0x00#8, 0x00#8, 0x00#8, 0x0E#8]
      0x800000000000000000000000000E#256 = true ∧
    pushes 0x6E#8 [0x80#8, 0x00#8, 0x00#8, 0x00#8, 0x00#8, 0x00#8, 0x00#8, 0x00#8, 0x00#8, 0x00#8, 0x00#8, 0x00#8, 0x00#8, 0x00#8, 0x0F#8]
      0x80000000000000000000000000000F#256 = true ∧
    pushes 0x6F#8 [0x80#8, 0x00#8, 0x00#8, 0x00#8, 0x00#8, 0x00#8, 0x00#8, 0x00#8, 0x00#8, 0x00#8, 0x00#8, 0x00#8, 0x00#8, 0x00#8, 0x00#8, 0x10#8]
      0x80000000000000000000000000000010#256 = true := by decide

/-- R202 to R233: PUSH17 to PUSH24 push the value of the bytes and leave `pc` behind them. -/
theorem test_push17_to_push24 :
    pushes 0x70#8 [0x80#8, 0x00#8, 0x00#8, 0x00#8, 0x00#8, 0x00#8, 0x00#8, 0x00#8, 0x00#8, 0x00#8, 0x00#8, 0x00#8, 0x00#8, 0x00#8, 0x00#8, 0x00#8, 0x11#8]
      0x8000000000000000000000000000000011#256 = true ∧
    pushes 0x71#8 [0x80#8, 0x00#8, 0x00#8, 0x00#8, 0x00#8, 0x00#8, 0x00#8, 0x00#8, 0x00#8, 0x00#8, 0x00#8, 0x00#8, 0x00#8, 0x00#8, 0x00#8, 0x00#8, 0x00#8, 0x12#8]
      0x800000000000000000000000000000000012#256 = true ∧
    pushes 0x72#8 [0x80#8, 0x00#8, 0x00#8, 0x00#8, 0x00#8, 0x00#8, 0x00#8, 0x00#8, 0x00#8, 0x00#8, 0x00#8, 0x00#8, 0x00#8, 0x00#8, 0x00#8, 0x00#8, 0x00#8, 0x00#8, 0x13#8]
      0x80000000000000000000000000000000000013#256 = true ∧
    pushes 0x73#8 [0x80#8, 0x00#8, 0x00#8, 0x00#8, 0x00#8, 0x00#8, 0x00#8, 0x00#8, 0x00#8, 0x00#8, 0x00#8, 0x00#8, 0x00#8, 0x00#8, 0x00#8, 0x00#8, 0x00#8, 0x00#8, 0x00#8, 0x14#8]
      0x8000000000000000000000000000000000000014#256 = true ∧
    pushes 0x74#8 [0x80#8, 0x00#8, 0x00#8, 0x00#8, 0x00#8, 0x00#8, 0x00#8, 0x00#8, 0x00#8, 0x00#8, 0x00#8, 0x00#8, 0x00#8, 0x00#8, 0x00#8, 0x00#8, 0x00#8, 0x00#8, 0x00#8, 0x00#8, 0x15#8]
      0x800000000000000000000000000000000000000015#256 = true ∧
    pushes 0x75#8 [0x80#8, 0x00#8, 0x00#8, 0x00#8, 0x00#8, 0x00#8, 0x00#8, 0x00#8, 0x00#8, 0x00#8, 0x00#8, 0x00#8, 0x00#8, 0x00#8, 0x00#8, 0x00#8, 0x00#8, 0x00#8, 0x00#8, 0x00#8, 0x00#8, 0x16#8]
      0x80000000000000000000000000000000000000000016#256 = true ∧
    pushes 0x76#8 [0x80#8, 0x00#8, 0x00#8, 0x00#8, 0x00#8, 0x00#8, 0x00#8, 0x00#8, 0x00#8, 0x00#8, 0x00#8, 0x00#8, 0x00#8, 0x00#8, 0x00#8, 0x00#8, 0x00#8, 0x00#8, 0x00#8, 0x00#8, 0x00#8, 0x00#8, 0x17#8]
      0x8000000000000000000000000000000000000000000017#256 = true ∧
    pushes 0x77#8 [0x80#8, 0x00#8, 0x00#8, 0x00#8, 0x00#8, 0x00#8, 0x00#8, 0x00#8, 0x00#8, 0x00#8, 0x00#8, 0x00#8, 0x00#8, 0x00#8, 0x00#8, 0x00#8, 0x00#8, 0x00#8, 0x00#8, 0x00#8, 0x00#8, 0x00#8, 0x00#8, 0x18#8]
      0x800000000000000000000000000000000000000000000018#256 = true := by decide

/-- R202 to R233: PUSH25 to PUSH32 push the value of the bytes and leave `pc` behind them. -/
theorem test_push25_to_push32 :
    pushes 0x78#8 [0x80#8, 0x00#8, 0x00#8, 0x00#8, 0x00#8, 0x00#8, 0x00#8, 0x00#8, 0x00#8, 0x00#8, 0x00#8, 0x00#8, 0x00#8, 0x00#8, 0x00#8, 0x00#8, 0x00#8, 0x00#8, 0x00#8, 0x00#8, 0x00#8, 0x00#8, 0x00#8, 0x00#8, 0x19#8]
      0x80000000000000000000000000000000000000000000000019#256 = true ∧
    pushes 0x79#8 [0x80#8, 0x00#8, 0x00#8, 0x00#8, 0x00#8, 0x00#8, 0x00#8, 0x00#8, 0x00#8, 0x00#8, 0x00#8, 0x00#8, 0x00#8, 0x00#8, 0x00#8, 0x00#8, 0x00#8, 0x00#8, 0x00#8, 0x00#8, 0x00#8, 0x00#8, 0x00#8, 0x00#8, 0x00#8, 0x1A#8]
      0x800000000000000000000000000000000000000000000000001A#256 = true ∧
    pushes 0x7A#8 [0x80#8, 0x00#8, 0x00#8, 0x00#8, 0x00#8, 0x00#8, 0x00#8, 0x00#8, 0x00#8, 0x00#8, 0x00#8, 0x00#8, 0x00#8, 0x00#8, 0x00#8, 0x00#8, 0x00#8, 0x00#8, 0x00#8, 0x00#8, 0x00#8, 0x00#8, 0x00#8, 0x00#8, 0x00#8, 0x00#8, 0x1B#8]
      0x80000000000000000000000000000000000000000000000000001B#256 = true ∧
    pushes 0x7B#8 [0x80#8, 0x00#8, 0x00#8, 0x00#8, 0x00#8, 0x00#8, 0x00#8, 0x00#8, 0x00#8, 0x00#8, 0x00#8, 0x00#8, 0x00#8, 0x00#8, 0x00#8, 0x00#8, 0x00#8, 0x00#8, 0x00#8, 0x00#8, 0x00#8, 0x00#8, 0x00#8, 0x00#8, 0x00#8, 0x00#8, 0x00#8, 0x1C#8]
      0x8000000000000000000000000000000000000000000000000000001C#256 = true ∧
    pushes 0x7C#8 [0x80#8, 0x00#8, 0x00#8, 0x00#8, 0x00#8, 0x00#8, 0x00#8, 0x00#8, 0x00#8, 0x00#8, 0x00#8, 0x00#8, 0x00#8, 0x00#8, 0x00#8, 0x00#8, 0x00#8, 0x00#8, 0x00#8, 0x00#8, 0x00#8, 0x00#8, 0x00#8, 0x00#8, 0x00#8, 0x00#8, 0x00#8, 0x00#8, 0x1D#8]
      0x800000000000000000000000000000000000000000000000000000001D#256 = true ∧
    pushes 0x7D#8 [0x80#8, 0x00#8, 0x00#8, 0x00#8, 0x00#8, 0x00#8, 0x00#8, 0x00#8, 0x00#8, 0x00#8, 0x00#8, 0x00#8, 0x00#8, 0x00#8, 0x00#8, 0x00#8, 0x00#8, 0x00#8, 0x00#8, 0x00#8, 0x00#8, 0x00#8, 0x00#8, 0x00#8, 0x00#8, 0x00#8, 0x00#8, 0x00#8, 0x00#8, 0x1E#8]
      0x80000000000000000000000000000000000000000000000000000000001E#256 = true ∧
    pushes 0x7E#8 [0x80#8, 0x00#8, 0x00#8, 0x00#8, 0x00#8, 0x00#8, 0x00#8, 0x00#8, 0x00#8, 0x00#8, 0x00#8, 0x00#8, 0x00#8, 0x00#8, 0x00#8, 0x00#8, 0x00#8, 0x00#8, 0x00#8, 0x00#8, 0x00#8, 0x00#8, 0x00#8, 0x00#8, 0x00#8, 0x00#8, 0x00#8, 0x00#8, 0x00#8, 0x00#8, 0x1F#8]
      0x8000000000000000000000000000000000000000000000000000000000001F#256 = true ∧
    pushes 0x7F#8 [0x80#8, 0x00#8, 0x00#8, 0x00#8, 0x00#8, 0x00#8, 0x00#8, 0x00#8, 0x00#8, 0x00#8, 0x00#8, 0x00#8, 0x00#8, 0x00#8, 0x00#8, 0x00#8, 0x00#8, 0x00#8, 0x00#8, 0x00#8, 0x00#8, 0x00#8, 0x00#8, 0x00#8, 0x00#8, 0x00#8, 0x00#8, 0x00#8, 0x00#8, 0x00#8, 0x00#8, 0x20#8]
      0x8000000000000000000000000000000000000000000000000000000000000020#256 = true := by decide

/-- Entries `1, 2, …, n`, the top first, so that `S[k] = k + 1` (V-D10). -/
def entries (n : Nat) : List Word := (List.range n).map fun k => BitVec.ofNat 256 (k + 1)

/-- A step on `op` with the stack `before` leaves the stack `after` (top first), and with its bottom entry removed it faults. -/
def needsExactly (op : Byte) (before after : List Word) : Bool :=
  decide (frameAfter (running (rootFrame [op] before)) = some (after, 1, Memory.empty)) &&
  decide (endAfter (running (rootFrame [op] before.dropLast)) = some (some .stackUnderflow, .halted, 0, oldData))

/-- V-D: DUP`N` on `N` entries copies the bottom one, on `N - 1` it faults. -/
def dupBoundary (op : Byte) (n : Nat) : Bool := needsExactly op (entries n) (BitVec.ofNat 256 n :: entries n)

/-- V-D: SWAP`N` on `N + 1` entries exchanges the top and the bottom one, on `N` it faults. -/
def swapBoundary (op : Byte) (n : Nat) : Bool :=
  needsExactly op (entries (n + 1)) (BitVec.ofNat 256 (n + 1) :: ((entries n).drop 1 ++ [1]))

theorem test_dup1_to_dup8 :
    dupBoundary 0x80#8 1 = true ∧
    dupBoundary 0x81#8 2 = true ∧
    dupBoundary 0x82#8 3 = true ∧
    dupBoundary 0x83#8 4 = true ∧
    dupBoundary 0x84#8 5 = true ∧
    dupBoundary 0x85#8 6 = true ∧
    dupBoundary 0x86#8 7 = true ∧
    dupBoundary 0x87#8 8 = true := by decide

theorem test_dup9_to_dup16 :
    dupBoundary 0x88#8 9 = true ∧
    dupBoundary 0x89#8 10 = true ∧
    dupBoundary 0x8A#8 11 = true ∧
    dupBoundary 0x8B#8 12 = true ∧
    dupBoundary 0x8C#8 13 = true ∧
    dupBoundary 0x8D#8 14 = true ∧
    dupBoundary 0x8E#8 15 = true ∧
    dupBoundary 0x8F#8 16 = true := by decide

theorem test_swap1_to_swap8 :
    swapBoundary 0x90#8 1 = true ∧
    swapBoundary 0x91#8 2 = true ∧
    swapBoundary 0x92#8 3 = true ∧
    swapBoundary 0x93#8 4 = true ∧
    swapBoundary 0x94#8 5 = true ∧
    swapBoundary 0x95#8 6 = true ∧
    swapBoundary 0x96#8 7 = true ∧
    swapBoundary 0x97#8 8 = true := by decide

theorem test_swap9_to_swap16 :
    swapBoundary 0x98#8 9 = true ∧
    swapBoundary 0x99#8 10 = true ∧
    swapBoundary 0x9A#8 11 = true ∧
    swapBoundary 0x9B#8 12 = true ∧
    swapBoundary 0x9C#8 13 = true ∧
    swapBoundary 0x9D#8 14 = true ∧
    swapBoundary 0x9E#8 15 = true ∧
    swapBoundary 0x9F#8 16 = true := by decide

/-! ### The MAU, byte by byte (V-B) -/

theorem test_mau_serial : mauAddSerial 0x01FF 0x0001 = 0x0200 ∧ mauSubSerial 0x0100 0x0001 = 0x00FF := by decide

/-- The scratch buffer of the product of 0xFFFF by itself, its low bytes. -/
theorem test_mau_serial_product :
    (mulScratch 0xFFFF 0xFFFF).take 5 = [0x01#8, 0x00#8, 0xFE#8, 0xFF#8, 0x00#8] := by rfl

/-! ### The host's operations (V-K) -/

/-- The state and the reply of an operation, where it answers. -/
def replyOf (o : Host.Outcome (State × HostReply) Fault Refusal) : Option (State × HostReply) :=
  match o with
  | .next r => some r
  | .fault _ => none
  | .refused _ => none

/-- V-K1 to V-K3. -/
theorem test_host_after_reset :
    replyOf (hostStep .readStatus State.reset) = some (State.reset, .status .halted none) ∧
    replyOf (hostStep .readReturnData State.reset) = some (State.reset, .returnData Memory.empty) ∧
    replyOf (hostStep .interpret State.reset) = some (State.reset, .refused .noFrame) := by decide

/-- V-K4, V-K5, V-K6: two frames, freed in the order of a stack only. -/
theorem test_host_frames :
    let s1 := (hostAllocateFrame [0x00#8] 0 State.reset).1
    let s2 := (hostAllocateFrame [0x01#8] 0 s1).1
    s1.chain = [Frame.fresh [0x00#8] 0 none] ∧ s2.cur = some 1 ∧ s2.nframes = 2 ∧
    hostFreeFrame 0 s2 = (s2, .refused .notCurrent) ∧ hostFreeFrame 1 s2 = (s1, .done) ∧
    hostFreeFrame 0 s1 = (State.reset, .done) := by decide

/-- V-K7, V-K8: no room on the chain, and a code buffer that is too long. -/
theorem test_host_refusals :
    let c : Config := { memMax := 1024, codeMax := 1, maxFrames := 1, gasBits := 8 }
    let s := { State.reset with config := c }
    (hostAllocateFrame [0x00#8, 0x00#8] 0 s).2 = .refused .codeTooLong ∧ (hostAllocateFrame [] 256 s).2 = .refused .gasTooWide ∧
    (hostAllocateFrame [] 0 (hostAllocateFrame [] 0 s).1).2 = .refused .chainFull := by decide

/-- V-H4 through the host: PUSH1 1 and the end of the code, a normal end. -/
theorem test_host_interpret :
    (replyOf (hostStep .interpret (hostAllocateFrame [0x60#8, 0x01#8] 0 State.reset).1)) = some (State.reset, .ended none) := by
  decide

/-! ### Witnesses: states and operands that meet the hypotheses of the statements -/

/-- `pc` past the opcode byte, as a meaning finds it. -/
def fetched (code : List Byte) (stack : List Word) : Frame := { rootFrame code stack with pc := 1 }

/-- A frame with a full stack of 1024 entries. -/
def fullFrame (code : List Byte) : Frame := rootFrame code (List.replicate 1024 7)

theorem fullFrame_depth (code : List Byte) : (fullFrame code).depth = 1024 := List.length_replicate

/-- Two frames on the chain, the upper one current. -/
def twoFrames : State :=
  { running (rootFrame [] []) with
    chain := [rootFrame [0x60#8, 0xAA#8] [8], { rootFrame [0x00#8] [1] with caller := some 0 }], cur := some 1 }

theorem witness_DecodeOfEncodeGivesInstrBack :
    Instr.add.wellFormed = true ∧ (Instr.push1 0).wellFormed = true ∧ (Instr.push1 255).wellFormed = true ∧
    (Instr.push32 (BitVec.allOnes 256)).wellFormed = true := by decide

theorem witness_EncodeOfDecodeGivesBytesBack :
    decode [0x01#8, 0x02#8] = .instr .add [0x02#8] ∧ decode [0x60#8, 0xFF#8, 0x00#8] = .instr (.push1 255) [0x00#8] := by decide

theorem witness_UnsupportedBytesFault :
    let f := rootFrame [0x04#8] []
    let g := rootFrame [0xFF#8] [1, 2]
    (running f).run = .running ∧ (running f).Current 0 f ∧ f.pc < f.codeEnd ∧ f.codeEnd ≤ f.code.length ∧
    f.code[f.pc]? = some 0x04#8 ∧ UnsupportedByte (0x04#8 : Byte).toNat ∧
    (running g).Current 0 g ∧ g.pc < g.codeEnd ∧ g.code[g.pc]? = some 0xFF#8 ∧ UnsupportedByte (0xFF#8 : Byte).toNat := by decide

theorem witness_LengthFromOpcodeByte :
    decode (0x60#8 :: [0x01#8, 0x02#8]) = .instr (.push1 1) [0x02#8] ∧ decode (0x5F#8 :: []) = .unsupported 0x5F#8 ∧
    decode (0x7F#8 :: List.replicate 32 0#8) = .instr (.push32 0) [] ∧ decode (0x80#8 :: []) = .instr .dup1 [] := by decide

/-- The lengths 0, 1 and 32 of the immediate, and a byte index in each of its two ranges. -/
theorem witness_PushImmediateIsBigEndian :
    ([] : List Byte).length ≤ 32 ∧ (List.replicate 32 1#8).length ≤ 32 ∧ 31 < (List.replicate 32 1#8).length ∧
    ([0x80#8] : List Byte).length ≤ 1 ∧ 0 < ([0x80#8] : List Byte).length ∧ 1 ≤ 31 ∧
    pushFamily.head?.map (·.1) = some ([0x80#8] : List Byte).length ∧
    pushFamily.getLast?.map (·.1) = some (List.replicate 32 1#8).length := by decide

theorem witness_StoreOrderInvertsPushOrder : (List.replicate 32 0xAB#8).length = 32 ∧ 0 < 32 ∧ 31 < 32 := by decide

theorem witness_DisassembleOfAssemble : ∀ i ∈ [Instr.push2 0x6000, .stop, .ret], i.wellFormed = true := by decide

/-- The depths 0, 1 and 1024. -/
theorem witness_StackPrimitives :
    (fullFrame []).depth = 1024 ∧ (rootFrame [] [5]).depth < 1024 ∧ (rootFrame [] []).stack = [] ∧
    (rootFrame [] [5]).stack = 5 :: [] ∧ (rootFrame [] [5]).depth ≤ 1 ∧ (rootFrame [] [5]).stack[0]? = some 5 ∧
    0 < (rootFrame [] [5]).depth ∧ 1 ≠ 0 := ⟨fullFrame_depth _, by decide⟩

theorem witness_StackLifoLaw :
    (rootFrame [] [5]).depth ≤ 1022 ∧ (rootFrame [] (List.replicate 1023 7)).depth = 1023 ∧
    (rootFrame [] [5]).depth ≤ 1024 ∧ (rootFrame [] [5]).push 7 = .ok (rootFrame [] [7, 5]) ∧
    (rootFrame [] [5]).pop = .ok (5, rootFrame [] []) := by
  exact ⟨by decide, List.length_replicate, by decide, rfl, rfl⟩

/-- ADD, MUL and SUB: two entries, a full stack of 1024, and one entry. -/
theorem witness_AddMulSubInstruction :
    let f := fetched [0x01#8] [5, 3]
    let g := fetched [0x01#8] [5]
    (running f).Current 0 f ∧ f.stack = 5 :: 3 :: [] ∧ f.depth ≤ 1024 ∧ (running g).Current 0 g ∧ g.depth < 2 := by decide

theorem witness_AddMulSubInstruction_full :
    (running (fullFrame [0x01#8])).Current 0 (fullFrame [0x01#8]) ∧ (fullFrame [0x01#8]).depth ≤ 1024 ∧
    (fullFrame [0x01#8]).stack = 7 :: 7 :: List.replicate 1022 7 :=
  ⟨⟨rfl, rfl⟩, (fullFrame_depth _).le, rfl⟩

theorem witness_PopInstruction :
    let f := fetched [0x50#8] [5]
    let g := fetched [0x50#8] []
    (running f).Current 0 f ∧ f.stack = 5 :: [] ∧ (running g).Current 0 g ∧ g.stack = [] := by decide

/-- DUP1 on one entry and on none, DUP16 on 16 entries and on 15, and DUP1 on a full stack. -/
theorem witness_DupInstructions :
    (1, Instr.dup1) ∈ dupFamily ∧ (16, Instr.dup16) ∈ dupFamily ∧
    (fetched [0x80#8] [5]).stack[1 - 1]? = some 5 ∧ (fetched [0x80#8] [5]).depth < 1024 ∧
    (fetched [0x80#8] []).depth < 1 ∧
    (fetched [0x8F#8] (entries 16)).stack[16 - 1]? = some 16 ∧ (fetched [0x8F#8] (entries 15)).depth < 16 ∧
    (running (fetched [0x80#8] [5])).Current 0 (fetched [0x80#8] [5]) := by decide

theorem witness_DupInstructions_full :
    (running (fullFrame [0x80#8])).Current 0 (fullFrame [0x80#8]) ∧ (fullFrame [0x80#8]).depth = 1024 :=
  ⟨⟨rfl, rfl⟩, fullFrame_depth _⟩

theorem witness_SwapInstructions :
    (1, Instr.swap1) ∈ swapFamily ∧ (16, Instr.swap16) ∈ swapFamily ∧
    1 + 1 ≤ (fetched [0x90#8] [5, 7]).depth ∧ (fetched [0x90#8] [5]).depth ≤ 1 ∧
    16 + 1 ≤ (fetched [0x9F#8] (entries 17)).depth ∧ (fetched [0x9F#8] (entries 16)).depth ≤ 16 ∧
    (fetched [0x90#8] [5, 5]).stack[0]? = (fetched [0x90#8] [5, 5]).stack[1]? ∧
    (running (fetched [0x90#8] [5, 7])).Current 0 (fetched [0x90#8] [5, 7]) := by decide

/-- PUSH2 with exactly 2 bytes left, with 1, and on a full stack. -/
theorem witness_PushInstructions :
    let f := fetched [0x61#8, 0x12#8, 0x34#8] []
    let g := fetched [0x61#8, 0x12#8] []
    (running f).Current 0 f ∧ 2 ≤ f.codeEnd - f.pc ∧ f.depth < 1024 ∧ (running g).Current 0 g ∧ g.codeEnd - g.pc < 2 ∧
    pushFamily[1]?.map (·.1) = some 2 := by decide

theorem witness_PushInstructions_full :
    let f := fetched [0x61#8, 0x12#8, 0x34#8] (List.replicate 1024 7)
    (running f).Current 0 f ∧ 2 ≤ f.codeEnd - f.pc ∧ f.depth = 1024 :=
  ⟨⟨rfl, rfl⟩, by show 2 ≤ 3 - 1; decide, List.length_replicate⟩

theorem witness_PushStep :
    let f := rootFrame [0x61#8, 0x12#8, 0x34#8] []
    let g := rootFrame [0x61#8, 0x12#8] []
    (running f).run = .running ∧ (running f).Current 0 f ∧ f.codeEnd = f.code.length ∧
    f.code[f.pc]? = some (BitVec.ofNat 8 (0x5F + 2)) ∧ 2 ≤ f.codeEnd - (f.pc + 1) ∧ f.depth < 1024 ∧
    (running g).Current 0 g ∧ g.code[g.pc]? = some (BitVec.ofNat 8 (0x5F + 2)) ∧ g.codeEnd - (g.pc + 1) < 2 := by decide

theorem witness_PushStep_full :
    let f := fullFrame [0x60#8, 0x12#8]
    (running f).run = .running ∧ (running f).Current 0 f ∧ f.codeEnd = f.code.length ∧
    f.code[f.pc]? = some (BitVec.ofNat 8 (0x5F + 1)) ∧ 1 ≤ f.codeEnd - (f.pc + 1) ∧ f.depth = 1024 :=
  ⟨rfl, ⟨rfl, rfl⟩, rfl, rfl, by show 1 ≤ 2 - (0 + 1); decide, fullFrame_depth _⟩

/-- A memory with two bytes that are not zero. -/
def someMem : Memory := { len := 40, cells := [(2, 0x11#8), (39, 0x22#8)] }

/-- `n` at `MEM_MAX` and one above; a byte that existed and one that growth adds. -/
theorem witness_MemGrowRule :
    1024 < 1025 ∧ 1024 ≤ 1024 ∧ 2 < someMem.len ∧ someMem.wf ∧ someMem.len ≤ 40 ∧ 40 < 1024 ∧ 40 ≤ someMem.len := by decide

theorem witness_MemReadWriteRules :
    someMem.wf ∧ 0 < 3 ∧ 0 < [0x55#8].length ∧ ((1 < 2 ∨ 2 + [0x55#8].length ≤ 1) ∧ (3 < 2 ∨ 2 + [0x55#8].length ≤ 3)) := by decide

theorem witness_CanonicalMemoryIsUnique :
    someMem.wf ∧ someMem.len = someMem.len ∧ ∀ a, a < someMem.len → someMem.read a = someMem.read a := by
  exact ⟨by decide, rfl, fun _ _ => rfl⟩

theorem witness_LaterStoreWins : someMem.wf ∧ 0 + 32 ≤ someMem.len ∧ 8 + 32 ≤ someMem.len := by decide

/-- MSTORE at the last offset that fits 1024 bytes, at the first that does not, and with one entry. -/
theorem witness_MstoreInstruction :
    let f := fetched [0x52#8] [0x3E0, 7]
    let g := fetched [0x52#8] [0x3E1, 7]
    let h := fetched [0x52#8] [7]
    (running1k f).Current 0 f ∧ f.stack = 0x3E0 :: 7 :: [] ∧ f.mem.wf ∧
    (0x3E0 : Word).toNat % 2 ^ 64 + 32 ≤ (running1k f).config.memMax ∧
    (running1k g).Current 0 g ∧ g.stack = 0x3E1 :: 7 :: [] ∧ (running1k g).config.memMax < (0x3E1 : Word).toNat % 2 ^ 64 + 32 ∧
    (running1k h).Current 0 h ∧ h.depth < 2 := by decide

theorem witness_OffsetsAreLow64Bits :
    (BitVec.ofNat 256 (2 ^ 64 + 5)).toNat % 2 ^ 64 = (5 : Word).toNat % 2 ^ 64 ∧
    (BitVec.ofNat 256 (2 ^ 255)).toNat % 2 ^ 64 = (0 : Word).toNat % 2 ^ 64 := by decide

/-- RETURN of the last byte that fits, of one more, and with one entry. -/
theorem witness_ReturnInstruction :
    let f := fetched [0xF3#8] [0x3FF, 1]
    let g := fetched [0xF3#8] [0x3FF, 2]
    let h := fetched [0xF3#8] [7]
    (running1k f).Current 0 f ∧ f.stack = 0x3FF :: 1 :: [] ∧ f.mem.wf ∧
    (0x3FF : Word).toNat % 2 ^ 64 + (1 : Word).toNat % 2 ^ 64 ≤ (running1k f).config.memMax ∧
    (running1k g).Current 0 g ∧ g.stack = 0x3FF :: 2 :: [] ∧
    (running1k g).config.memMax < (0x3FF : Word).toNat % 2 ^ 64 + (2 : Word).toNat % 2 ^ 64 ∧
    (running1k h).Current 0 h ∧ h.depth < 2 := by decide

theorem witness_StopInstruction : (running (fetched [0x00#8] [5])).Current 0 (fetched [0x00#8] [5]) := by decide

theorem witness_EndOfCodeRetires :
    let f := rootFrame [] [5]
    (running f).run = .running ∧ (running f).Current 0 f ∧ f.pc = f.codeEnd := by decide

theorem running_inv : (running (rootFrame [0x60#8, 0x01#8] [5])).Inv := by decide

theorem twoFrames_inv : twoFrames.Inv := by decide

/-- A frame above its caller, and a root. -/
theorem witness_RetirementResumesCaller :
    (twoFrames.run = .running ∧ twoFrames.Current 1 { rootFrame [0x00#8] [1] with caller := some 0 } ∧ 0 < 1 ∧
      (nextOf (exec .stop twoFrames)).isSome = true) ∧
    ((running (rootFrame [0x60#8, 0x01#8] [5])).Current 0 (rootFrame [0x60#8, 0x01#8] [5]) ∧
      (nextOf (exec .stop (running (rootFrame [0x60#8, 0x01#8] [5])))).isSome = true) := by decide

theorem witness_FaultEntry :
    let s := running (rootFrame [0x50#8] [])
    s.Inv ∧ s.run = .running ∧ (nextOf (step s)).map (·.fault) = some (some .stackUnderflow) := by decide

theorem witness_FaultTable :
    let f := fetched [0x52#8] []
    let g := rootFrame [0x51#8] []
    (running f).Current 0 f ∧ f.depth ≤ 1024 ∧ (running f).fault = none ∧
    (running g).run = .running ∧ (running g).Current 0 g ∧ g.pc < g.codeEnd ∧ g.fetch = .unsupported 0x51#8 ∧
    (rootFrame [] []).pc = (rootFrame [] []).codeEnd := by decide

theorem witness_StepRunsDecodedInstruction :
    let f := rootFrame [0x60#8, 0x01#8] [5]
    (running f).run = .running ∧ (running f).Current 0 f ∧ f.pc ≠ f.codeEnd ∧
    decode ((f.code.take f.codeEnd).drop f.pc) = .instr (.push1 1) [] := by decide

theorem witness_HaltedStepChangesNothing : State.reset.run = .halted := by decide

/-- For StepKeepsMachineInvariant, StepNeverStuck, WhatStepsNeverDo, GasIsInert and FrameInvariants. -/
theorem witness_StepKeepsMachineInvariant :
    let s := running (rootFrame [0x60#8, 0x01#8] [5])
    s.Inv ∧ (nextOf (step s)).map (fun t => (t.chain[0]?.map Frame.depth, t.nframes)) = some (some 2, 1) := by decide

theorem witness_PcMovesByInstructionLength :
    let f := rootFrame [0x60#8, 0x01#8] [5]
    (running f).Inv ∧ (running f).run = .running ∧ (running f).Current 0 f ∧ f.fetch = .instr (.push1 1) [] ∧
    (nextOf (step (running f))).map State.nframes = some (running f).nframes := by decide

theorem witness_OnlyReturnWritesReturnData :
    let f := rootFrame [0x60#8, 0x01#8] [5]
    (running f).run = .running ∧ (running f).Current 0 f ∧ (∀ rest, f.fetch ≠ .instr .ret rest) ∧
    (nextOf (step (running f))).isSome = true := by
  refine ⟨rfl, ⟨rfl, rfl⟩, fun rest => ?_, by decide⟩
  rw [show (rootFrame [0x60#8, 0x01#8] [5]).fetch = .instr (.push1 1) [] by decide]
  simp

theorem witness_EveryRunEnds : twoFrames.Inv ∧ twoFrames.run = .running := by decide

/-- The last gas value and chain length that are accepted, and each way to be refused. -/
theorem witness_AllocateFrameOperation :
    let c : Config := { memMax := 1024, codeMax := 1, maxFrames := 1, gasBits := 8 }
    let s := { State.reset with config := c }
    let full := { s with chain := [rootFrame [] []], cur := some 0 }
    255 < 2 ^ s.config.gasBits ∧ s.run = .halted ∧ s.nframes < s.config.maxFrames ∧ [0x00#8].length ≤ s.config.codeMax ∧
    s.config.codeMax < [0x00#8, 0x00#8].length ∧ full.config.maxFrames ≤ full.nframes ∧ twoFrames.run = .running ∧
    7 < 2 ^ twoFrames.config.gasBits := by decide

theorem witness_FreeFrameOperation :
    let s := { twoFrames with run := .halted }
    s.run = .halted ∧ s.Current 1 { rootFrame [0x00#8] [1] with caller := some 0 } ∧ s.cur ≠ some 0 ∧
    twoFrames.run = .running := by decide

theorem witness_InterpretRunsToTheEnd :
    let s := { twoFrames with run := .halted }
    s.Inv ∧ s.run = .halted ∧ s.cur ≠ none := by decide

theorem witness_InterpretWithoutFrameIsRefused : State.reset.cur = none ∧ twoFrames.run = .running := by decide

theorem witness_HostOperationsKeepMachineInvariant :
    State.reset.Inv ∧ replyOf (hostStep .readStatus State.reset) = some (State.reset, .status .halted none) := by decide

theorem witness_HostReadsAndHandles :
    State.reset.run = .halted ∧ twoFrames.run = .running ∧ HostOp.interpret ≠ .reset ∧
    replyOf (hostStep .interpret State.reset) = some (State.reset, .refused .noFrame) := by decide

theorem witness_OverwideGasIsRefused : 2 ^ State.reset.config.gasBits ≤ 2 ^ 64 := by decide


end Sys2Proof.Tests
end

section
/-! PROOFS. The big-endian byte order (00_scope R10, 20_memory R62, R63): the bytes of a Word by position, and that a byte
sequence is determined by its length and its big-endian value. -/

namespace Sys2Proof.Machine

theorem beBytes_getElem? (v : Word) {n i : Nat} (h : i < n) : (beBytes n v)[i]? = some (byteOf v (n - 1 - i)) := by
  induction n generalizing i with
  | zero => omega
  | succ n ih =>
    cases i with
    | zero => rfl
    | succ i =>
      rw [beBytes, List.getElem?_cons_succ, ih (by omega)]
      congr 2; omega

/-- `be` loses nothing but the length: the first byte is the quotient by `256^(len-1)`, the other bytes the remainder. -/
theorem beNat_inj {s t : List Byte} (hlen : s.length = t.length) (h : beNat s = beNat t) : s = t := by
  induction s generalizing t with
  | nil => exact (List.length_eq_zero_iff.mp hlen.symm).symm
  | cons b s ih =>
    obtain _ | ⟨c, t⟩ := t
    · simp at hlen
    have hlen : s.length = t.length := by simpa using hlen
    have hs : beNat s < 256 ^ t.length := hlen ▸ beNat_lt s
    have ht := beNat_lt t
    have hpos : 0 < 256 ^ t.length := by positivity
    rw [beNat, beNat, hlen] at h
    have hquot := congrArg (· / 256 ^ t.length) h
    have hrem := congrArg (· % 256 ^ t.length) h
    simp only [Nat.mul_add_mod', Nat.mod_eq_of_lt hs, Nat.mod_eq_of_lt ht] at hrem
    simp only [Nat.add_comm (_ * _), Nat.add_mul_div_right _ _ hpos, Nat.div_eq_of_lt hs, Nat.div_eq_of_lt ht,
      Nat.zero_add] at hquot
    rw [BitVec.eq_of_toNat_eq hquot, ih hlen hrem]

/-- Writing back the Word that at most 32 bytes were read as gives the bytes in their order (20_memory R63). -/
theorem beBytes_beWord {s : List Byte} (h : s.length ≤ 32) : beBytes s.length (beWord s) = s := by
  refine beNat_inj (beBytes_length _ _) ?_
  rw [beNat_beBytes, beWord_toNat h, Nat.mod_eq_of_lt (beNat_lt s)]

theorem beNat_be32 (v : Word) : beNat (be32 v) = v.toNat := by
  rw [be32, beNat_beBytes, Nat.mod_eq_of_lt]
  exact v.isLt

/-- Settles O7: the length, the elements and the value of `be32 v` are those of `beBytes 32 v`; the second inverse is
`beBytes_beWord` at length 32. -/
theorem storeOrderInvertsPushOrder : Obligations.StoreOrderInvertsPushOrder := by
  refine ⟨fun v => ⟨beBytes_length 32 v, fun i hi => beBytes_getElem? v hi, beNat_be32 v⟩, fun s hs => ?_⟩
  have h := beBytes_beWord hs.le
  rwa [hs] at h

end Sys2Proof.Machine
end

section
/-! PROOFS. The invariant of the machine (10_state R23, R24, R32 to R34): how each change of the chain keeps it, that a step and
every operation of the host keep it, and what follows for the frames that live on. -/

namespace Sys2Proof.Machine

/-! ### The links of the chain (10_state R23) -/

section Linked
variable {chain : List Frame} {f g : Frame} {k : Nat}

theorem linked_iff : Linked chain ↔ ∀ i f, chain[i]? = some f → f.caller = lastRef i := by
  refine ⟨fun h i f hf => ?_, fun h i hi => h i _ (List.getElem?_eq_getElem hi)⟩
  obtain ⟨hi, rfl⟩ := List.getElem?_eq_some_iff.mp hf
  exact h i hi

theorem linked_nil : Linked [] := fun _ h => absurd h (Nat.not_lt_zero _)

theorem linked_set (h : Linked chain) (hf : chain[k]? = some f) (hg : g.caller = f.caller) : Linked (chain.set k g) := by
  rw [linked_iff] at h ⊢
  intro i f' hf'
  rw [List.getElem?_set] at hf'
  split at hf'
  · next hki =>
    split at hf'
    · cases hf'
      rw [hg, h k f hf, hki]
    · cases hf'
  · exact h i f' hf'

theorem linked_eraseIdx_last (h : Linked chain) (hk : chain.length = k + 1) : Linked (chain.eraseIdx k) := by
  intro i hi
  have hik : i < k := by rw [List.length_eraseIdx_of_lt (by omega)] at hi; omega
  rw [List.getElem_eraseIdx_of_lt hi hik]
  exact h i _

theorem linked_append (h : Linked chain) (hg : g.caller = lastRef chain.length) : Linked (chain ++ [g]) := by
  intro i hi
  rw [List.getElem_append]
  split
  · exact h i _
  · next hlt =>
    have hi' : i = chain.length := by simp at hi; omega
    simpa [hi'] using hg

end Linked

/-! ### The changes of the chain keep the invariant -/

/-- A Halted machine without frames meets the invariant: after reset (10_state R44) and after a fault (60_exceptions R310). -/
theorem State.inv_of_no_frames {s : State} (hcfg : s.config.wf) (hchain : s.chain = []) (hcur : s.cur = none)
    (hrun : s.run = .halted) (hwf : s.retdata.wf) (hlen : s.retdata.len ≤ s.config.memMax) : s.Inv := by
  refine ⟨hcfg, ?_, ?_, hchain ▸ linked_nil, ?_, hwf, hlen, ?_, ?_⟩ <;> simp [State.nframes, lastRef, hchain, hcur, hrun]

theorem State.raise_inv {s : State} (hi : s.Inv) (c : FaultCategory) : (s.raise c).Inv := by
  obtain ⟨hcfg, -, -, -, -, hwf, hlen, -, -⟩ := hi
  exact State.inv_of_no_frames hcfg rfl rfl rfl hwf hlen

section Current
variable {s : State} {k : Nat} {f : Frame}

theorem State.exists_current_of_running (hi : s.Inv) (hr : s.run = .running) : ∃ (k : Nat) (f : Frame), s.Current k f := by
  obtain ⟨-, -, -, -, -, -, -, hcur, -⟩ := id hi
  exact State.exists_current hi (hcur hr)

theorem State.length_erase_current (hi : s.Inv) (hc : s.Current k f) : (s.chain.eraseIdx k).length = k := by
  have hk := State.length_of_current hi hc
  rw [List.length_eraseIdx_of_lt (by omega)]; omega

/-- Another frame in the place of the current one. -/
theorem State.inv_set_current (hi : s.Inv) (hc : s.Current k f) {g : Frame} (hg : g.Inv s.config)
    (hcaller : g.caller = f.caller) : State.Inv { s with chain := s.chain.set k g } := by
  obtain ⟨hcfg, hmax, hcur, hlink, hframes, hret⟩ := hi
  refine ⟨hcfg, by simpa [State.nframes] using hmax, by simpa [State.nframes] using hcur,
    linked_set hlink hc.2 hcaller, fun f' hf' => ?_, hret⟩
  rcases List.mem_or_eq_of_mem_set hf' with hf' | rfl
  · exact hframes f' hf'
  · exact hg

/-- The current frame released, with any canonical return data and a loop that runs on only with a caller to resume
(44 R253). -/
theorem State.inv_erase_current (hi : s.Inv) (hc : s.Current k f) {d : Memory} (hwf : d.wf)
    (hlen : d.len ≤ s.config.memMax) {r : RunState} (hr : r = .running → f.caller ≠ none ∧ s.fault = none) :
    State.Inv { s with retdata := d, chain := s.chain.eraseIdx k, cur := f.caller, run := r } := by
  have hk := State.length_of_current hi hc
  have hk' := State.length_erase_current hi hc
  obtain ⟨hcfg, hmax, -, hlink, hframes, -⟩ := hi
  refine ⟨hcfg, ?_, ?_, linked_eraseIdx_last hlink hk, fun f' hf' => hframes f' (List.mem_of_mem_eraseIdx hf'), hwf, hlen,
    fun h => (hr h).1, fun h => (hr h).2⟩
  · simp only [State.nframes] at hmax ⊢; omega
  · simpa only [State.nframes, hk'] using linked_iff.mp hlink k f hc.2

end Current

/-- A frame put on the chain of a Halted machine, with the frame that was current as its caller (45 R281). -/
theorem State.inv_append {s : State} (hi : s.Inv) (hrun : s.run = .halted) (hroom : s.nframes < s.config.maxFrames)
    {g : Frame} (hg : g.Inv s.config) (hcaller : g.caller = s.cur) :
    State.Inv { s with chain := s.chain ++ [g], cur := some s.nframes } := by
  obtain ⟨hcfg, -, hcur, hlink, hframes, hwf, hlen, -⟩ := hi
  refine ⟨hcfg, by simpa [State.nframes] using hroom, by simp [State.nframes, lastRef],
    linked_append hlink (hcaller.trans hcur), ?_, hwf, hlen, by simp, by simp [hrun]⟩
  exact List.forall_mem_append.mpr ⟨hframes, List.forall_mem_singleton.mpr hg⟩

/-! ### A body keeps the invariant of its frame (10_state R32) -/

@[simp] theorem be32_length (v : Word) : (be32 v).length = 32 := beBytes_length 32 v

section Body
variable {memMax : Nat} {i : Instr} {f g : Frame}

theorem BodyEffect.mem_len_le (h : BodyEffect memMax i f g) : f.mem.len ≤ g.mem.len := by
  rcases h.mem with hm | ⟨o, v, -, hm⟩ <;> simp [hm]

theorem BodyEffect.mem_len_le_max (h : BodyEffect memMax i f g) (hf : f.mem.len ≤ memMax) : g.mem.len ≤ memMax := by
  rcases h.mem with hm | ⟨o, v, ho, hm⟩ <;> simp [*]

theorem BodyEffect.mem_wf (h : BodyEffect memMax i f g) (hf : f.mem.wf) : g.mem.wf := by
  rcases h.mem with hm | ⟨o, v, -, hm⟩
  · rwa [hm]
  · rw [hm]
    exact Memory.write_wf (Memory.extend_wf hf _) (by simp)

/-- The invariant of a frame through the fetch of an opcode byte and a body. -/
theorem BodyEffect.inv {c : Config} (h : BodyEffect c.memMax i f.afterFetch g) (hf : f.Inv c) (hpc : f.pc ≠ f.codeEnd) :
    g.Inv c := by
  obtain ⟨hdepth, hle, hend, hmax, hwf, hlen, hgas⟩ := hf
  have hpc' := h.pc
  have hin := h.inCode
  simp only [Frame.afterFetch] at hpc' hin
  refine ⟨h.depth hdepth, ?_, ?_, ?_, h.mem_wf hwf, h.mem_len_le_max hlen, ?_⟩
  · rw [h.codeEnd, hpc']; simp only [Frame.afterFetch]; omega
  · rw [h.codeEnd, h.code]; exact hend
  · rw [h.codeEnd]; exact hmax
  · rw [h.gasLeft]; exact hgas

end Body

/-! ### A step keeps the invariant -/

/-- The invariant through a step: each of the three outcomes of `step_cases` is a change of the chain that keeps it. -/
theorem step_inv {s t : State} (hi : s.Inv) (h : step s = .next t) : t.Inv := by
  cases hr : s.run with
  | halted =>
    rw [step_halted hr] at h
    cases h; exact hi
  | running =>
    obtain ⟨-, -, -, -, -, hwf, hlen, -, hfault⟩ := id hi
    obtain ⟨k, f, hc⟩ := State.exists_current_of_running hi hr
    have hf := State.frameInv_of_current hi hc
    obtain ⟨-, -, -, -, hmem, -⟩ := id hf
    rcases step_cases hr hc h with ⟨-, c, rfl⟩ | ⟨d, hd, rfl⟩ | ⟨hpc, i, rest, g, -, hg, rfl⟩
    · exact State.raise_inv hi c
    · have hd' : d.wf ∧ d.len ≤ s.config.memMax := by
        obtain rfl | ⟨_, o, n, -, hon, rfl⟩ := hd
        · exact ⟨hwf, hlen⟩
        · exact ⟨Memory.slice_wf hmem o n, by simp; omega⟩
      exact State.inv_erase_current hi hc hd'.1 hd'.2 fun hrun => ⟨fun hn => by simp [hn] at hrun, hfault hr⟩
    · exact State.inv_set_current hi hc (hg.inv hf hpc) hg.caller

/-- Settles O41, by the three outcomes of a running step. -/
theorem stepKeepsMachineInvariant : Obligations.StepKeepsMachineInvariant := fun _ _ => step_inv

/-! ### The frames that live on -/

/-- Under the invariant every frame on the chain after a step is the frame that was at its place, or what a body made of
the current one. -/
theorem step_chain_getElem? {s t : State} {j : Nat} {g : Frame} (hi : s.Inv) (h : step s = .next t)
    (hg : t.chain[j]? = some g) :
    s.chain[j]? = some g ∨ ∃ f i, s.chain[j]? = some f ∧ BodyEffect s.config.memMax i f.afterFetch g := by
  cases hr : s.run with
  | halted =>
    rw [step_halted hr] at h
    cases h; exact .inl hg
  | running =>
    obtain ⟨k, f, hc⟩ := State.exists_current_of_running hi hr
    rcases step_cases hr hc h with ⟨-, c, rfl⟩ | ⟨d, -, rfl⟩ | ⟨-, i, rest, g', -, he, rfl⟩
    · simp at hg
    · have hj : j < k := State.length_erase_current hi hc ▸ (List.getElem?_eq_some_iff.mp hg).1
      exact .inl (by rwa [← List.getElem?_eraseIdx_of_lt hj])
    · by_cases hj : k = j
      · subst hj
        obtain rfl : g' = g := by simpa [State.length_of_current hi hc] using hg
        exact .inr ⟨f, i, hc.2, he⟩
      · exact .inl (by rwa [← List.getElem?_set_ne hj])

/-- Settles O46: the bounds are the invariant after the step, the rest what a body leaves of its frame. -/
theorem frameInvariants : Obligations.FrameInvariants := by
  intro s t hi h k g hg
  obtain ⟨-, -, -, -, hframes, -⟩ := step_inv hi h
  obtain ⟨hdepth, hpc, -, -, -, hlen, -⟩ := hframes g (List.mem_of_getElem? hg)
  rcases step_chain_getElem? hi h hg with hs | ⟨f, i, hs, he⟩
  · exact ⟨g, hs, hdepth, hpc, le_rfl, hlen, rfl, rfl, rfl, rfl⟩
  · exact ⟨f, hs, hdepth, hpc, he.mem_len_le, hlen, he.codeEnd, he.code, he.caller, he.gasLeft⟩

/-- An instruction is its opcode byte and its immediate bytes (30_encoding R93). -/
theorem encode_length (i : Instr) : (encode i).length = 1 + immediateBytes i := by
  cases i <;> simp [encode, immediateBytes, Nat.add_comm]

/-- Settles O47: a fault and a retirement make the chain shorter, and a body moves `pc` by the length of the immediate. -/
theorem pcMovesByInstructionLength : Obligations.PcMovesByInstructionLength := by
  intro s t k f i rest hi hr hc hfetch h hn
  have hk : s.nframes = k + 1 := State.length_of_current hi hc
  have hf := State.frameInv_of_current hi hc
  rcases step_cases hr hc h with ⟨-, c, rfl⟩ | ⟨d, -, rfl⟩ | ⟨hpc, i', rest', g, hfetch', he, rfl⟩
  · rw [hk] at hn; cases hn
  · exact absurd ((State.length_erase_current hi hc).symm.trans (hn.trans hk)) (by omega)
  · obtain ⟨rfl, -⟩ : i' = i ∧ rest' = rest := by simpa [hfetch] using hfetch'.symm
    obtain ⟨-, hle, -⟩ := he.inv hf hpc
    have hg : g.pc = f.pc + 1 + immediateBytes i' := he.pc
    have := encode_length i'
    exact ⟨g, by simpa [State.setFrame_of_current hc] using State.setFrame_current hc g, by omega, by omega, hle⟩

/-- Settles O48: of the outcomes of a running step only the retirement by RETURN writes `retdata`. -/
theorem onlyReturnWritesReturnData : Obligations.OnlyReturnWritesReturnData := by
  intro s t k f hr hc hnot h
  rcases step_cases hr hc h with ⟨-, c, rfl⟩ | ⟨d, hd, rfl⟩ | ⟨-, i, rest, g, -, -, rfl⟩
  · rfl
  · rcases hd with rfl | ⟨rest, o, n, hfetch, -⟩
    · rfl
    · exact absurd hfetch (hnot rest)
  · rfl

/-! ### The operations of the host (45 R280 to R291) -/

/-- Settles O43: the parameters of the reset state are within their bounds, and it has no frame. -/
theorem resetMeetsMachineInvariant : Obligations.ResetMeetsMachineInvariant :=
  ⟨State.inv_of_no_frames (by decide) rfl rfl rfl Memory.empty_wf (Nat.zero_le _), rfl, rfl, rfl, rfl, rfl, rfl⟩

theorem hostReset_inv {s : State} (hi : s.Inv) : (hostReset s).1.Inv :=
  State.inv_of_no_frames hi.1 rfl rfl rfl Memory.empty_wf (Nat.zero_le _)

theorem hostSetHandles_inv {s : State} (hi : s.Inv) (m k : Handle) : (hostSetHandles m k s).1.Inv := by
  unfold hostSetHandles
  split <;> exact hi

/-- A fresh frame meets the invariant of a frame, where `allocate_frame` accepts its code and its gas value. -/
theorem Frame.fresh_inv {c : Config} {code : List Byte} {gas : Nat} (hcode : code.length ≤ c.codeMax)
    (hgas : gas < 2 ^ c.gasBits) (caller : Option FrameRef) : (Frame.fresh code gas caller).Inv c :=
  ⟨Nat.zero_le _, Nat.zero_le _, rfl, hcode, Memory.empty_wf, Nat.zero_le _, hgas⟩

theorem hostAllocateFrame_inv {s : State} (hi : s.Inv) (code : List Byte) (gas : Nat) :
    (hostAllocateFrame code gas s).1.Inv := by
  unfold hostAllocateFrame
  split
  · exact hi
  · next hrun =>
    split_ifs with hfull hlong hwide
    · exact hi
    · exact hi
    · exact hi
    · exact State.inv_append hi hrun (Nat.not_le.mp hfull)
        (Frame.fresh_inv (Nat.not_lt.mp hlong) (Nat.not_le.mp hwide) s.cur) rfl

theorem hostFreeFrame_inv {s : State} (hi : s.Inv) (d : FrameRef) : (hostFreeFrame d s).1.Inv := by
  unfold hostFreeFrame
  split
  · exact hi
  · next hrun =>
    split_ifs
    · split
      · exact hi
      · next f hf =>
        obtain ⟨k, hc⟩ := State.frame?_eq_some.mp hf
        obtain ⟨-, -, -, -, -, hwf, hlen, -⟩ := id hi
        rw [State.release_of_current hc]
        exact State.inv_erase_current hi hc hwf hlen (by simp [hrun])
    · exact hi

theorem State.startLoop_inv {s : State} (hi : s.Inv) (hcur : s.cur ≠ none) : s.startLoop.Inv := by
  obtain ⟨hcfg, hmax, hlast, hlink, hframes, hwf, hlen, -⟩ := hi
  exact ⟨hcfg, hmax, hlast, hlink, hframes, hwf, hlen, fun _ => hcur, fun _ => rfl⟩

theorem runLoop_inv {fuel : Nat} {s t : State} (hi : s.Inv) (h : runLoop fuel s = .next t) : t.Inv := by
  induction fuel generalizing s with
  | zero => cases h; exact hi
  | succ fuel ih =>
    rw [runLoop] at h
    split at h
    · cases h; exact hi
    · split at h
      · next u hu => exact ih (step_inv hi hu) h
      · cases h
      · cases h

theorem hostInterpret_inv {s t : State} {r : HostReply} (hi : s.Inv) (h : hostInterpret s = .next (t, r)) : t.Inv := by
  unfold hostInterpret at h
  split at h
  · cases h; exact hi
  · split at h
    · cases h; exact hi
    · next k hcur =>
      split at h
      · next u hu =>
        cases h
        exact runLoop_inv (State.startLoop_inv hi (by simp [hcur])) hu
      · cases h
      · cases h

/-- The two reads change nothing (45 R287, R288). -/
theorem hostReadReturnData_state (s : State) : (hostReadReturnData s).1 = s := by
  unfold hostReadReturnData
  split <;> rfl

theorem hostReadStatus_state (s : State) : (hostReadStatus s).1 = s := by
  unfold hostReadStatus
  split <;> rfl

/-- Every operation but `interpret` answers its pair as it is. -/
theorem inv_of_answer {p : State × HostReply} {t : State} {r : HostReply} (hp : p.1.Inv)
    (h : (.next p : Host.Outcome (State × HostReply) Fault Refusal) = .next (t, r)) : t.Inv := by
  cases h; exact hp

/-- Settles O55, operation by operation. -/
theorem hostOperationsKeepMachineInvariant : Obligations.HostOperationsKeepMachineInvariant := by
  intro op s t r hi h
  cases op with
  | reset => exact inv_of_answer (hostReset_inv hi) h
  | setHandles m k => exact inv_of_answer (hostSetHandles_inv hi m k) h
  | allocateFrame code gas => exact inv_of_answer (hostAllocateFrame_inv hi code gas) h
  | freeFrame d => exact inv_of_answer (hostFreeFrame_inv hi d) h
  | interpret => exact hostInterpret_inv hi h
  | readReturnData => exact inv_of_answer (by rwa [hostReadReturnData_state]) h
  | readStatus => exact inv_of_answer (by rwa [hostReadStatus_state]) h

/-- Settles O58: a gas value that is too wide is reported, unless an earlier check refuses already. -/
theorem overwideGasIsRefused : Obligations.OverwideGasIsRefused := by
  intro s code gas hgas
  simp only [hostStep, hostAllocateFrame]
  split
  · exact ⟨_, rfl⟩
  · split_ifs <;> exact ⟨_, rfl⟩

/-- Settles O57: the two registers' codes, by their definitions. -/
theorem statusCodes : Obligations.StatusCodes := ⟨rfl, rfl, rfl, rfl, rfl, rfl, rfl, rfl⟩

end Sys2Proof.Machine
end

section
/-! PROOFS. The gas value is inert (10_state R30, 60_exceptions R331): every operation on a frame or on the state commutes with
the replacement of the gas values, and so does a step. -/

namespace Sys2Proof.Machine

/-! ### The replacement of a gas value, frame by frame -/

/-- One frame's gas value replaced: `State.withGas` does it to every frame of the chain. -/
def Frame.withGas (g : Nat) (f : Frame) : Frame := { f with gasLeft := g }

section Fields
variable (g : Nat) (s : State) (f : Frame)
@[simp] theorem State.withGas_chain : (s.withGas g).chain = s.chain.map (Frame.withGas g) := rfl
@[simp] theorem State.withGas_cur : (s.withGas g).cur = s.cur := rfl
@[simp] theorem State.withGas_run : (s.withGas g).run = s.run := rfl
@[simp] theorem State.withGas_config : (s.withGas g).config = s.config := rfl
@[simp] theorem Frame.withGas_stack : (f.withGas g).stack = f.stack := rfl
@[simp] theorem Frame.withGas_mem : (f.withGas g).mem = f.mem := rfl
@[simp] theorem Frame.withGas_pc : (f.withGas g).pc = f.pc := rfl
@[simp] theorem Frame.withGas_codeEnd : (f.withGas g).codeEnd = f.codeEnd := rfl
@[simp] theorem Frame.withGas_caller : (f.withGas g).caller = f.caller := rfl
@[simp] theorem Frame.withGas_depth : (f.withGas g).depth = f.depth := rfl
@[simp] theorem Frame.withGas_fetch : (f.withGas g).fetch = f.fetch := rfl
@[simp] theorem Frame.afterFetch_withGas : (f.withGas g).afterFetch = f.afterFetch.withGas g := rfl
end Fields

section State
variable (g : Nat) (s : State) (f : Frame)

@[simp] theorem State.frame?_withGas : (s.withGas g).frame? = s.frame?.map (Frame.withGas g) := by
  cases h : s.cur <;> simp [State.frame?, h]

@[simp] theorem State.setFrame_withGas : (s.withGas g).setFrame (f.withGas g) = (s.setFrame f).withGas g := by
  cases h : s.cur <;> simp [State.setFrame, State.withGas, Frame.withGas, h, List.map_set]

@[simp] theorem State.raise_withGas (c : FaultCategory) : (s.withGas g).raise c = (s.raise c).withGas g := rfl

@[simp] theorem State.release_withGas : (s.withGas g).release (f.withGas g) = (s.release f).withGas g := by
  cases h : s.cur <;> simp [State.release, State.withGas, Frame.withGas, h, List.eraseIdx_map]

@[simp] theorem State.retire_withGas : (s.withGas g).retire (f.withGas g) = (s.retire f).withGas g := by
  unfold State.retire
  rw [Frame.withGas_caller, State.release_withGas]
  split <;> rfl

end State

/-! ### The bodies -/

/-- The body does the same with another gas value, and leaves that value alone. -/
def GasBlind (body : Frame → Except FaultCategory Frame) : Prop :=
  ∀ (g : Nat) (f : Frame), body (f.withGas g) = (body f).map (Frame.withGas g)

@[simp] theorem Frame.binary_gasBlind (op : Word → Word → Word) : GasBlind (Frame.binary op) := by
  intro g f
  rw [Frame.binary_eq, Frame.binary_eq, Frame.withGas_stack]
  split <;> [(split <;> rfl); rfl]

@[simp] theorem Frame.drop_gasBlind : GasBlind Frame.drop := by
  intro g f
  rw [Frame.drop_eq, Frame.drop_eq, Frame.withGas_stack]
  split <;> rfl

@[simp] theorem Frame.dup_gasBlind {n : Nat} (hn : 1 ≤ n) : GasBlind (Frame.dup n) := by
  intro g f
  rw [Frame.dup_eq hn, Frame.dup_eq hn, Frame.withGas_stack, Frame.withGas_depth]
  split <;> [(split <;> rfl); rfl]

@[simp] theorem Frame.swap_gasBlind (n : Nat) : GasBlind (Frame.swap n) := by
  intro g f
  rw [Frame.swap_eq, Frame.swap_eq, Frame.withGas_stack]
  split <;> rfl

@[simp] theorem Frame.pushImm_gasBlind (n : Nat) (imm : Word) : GasBlind (Frame.pushImm n imm) := by
  intro g f
  rw [Frame.pushImm_eq, Frame.pushImm_eq, Frame.withGas_codeEnd, Frame.withGas_pc, Frame.withGas_depth]
  split <;> [rfl; (split <;> rfl)]

@[simp] theorem Frame.mstore_gasBlind (memMax : Nat) : GasBlind (Frame.mstore memMax) := by
  intro g f
  rw [Frame.mstore_eq, Frame.mstore_eq, Frame.withGas_stack]
  split <;> [(split <;> rfl); rfl]

theorem Frame.returnData_withGas (memMax g : Nat) (f : Frame) :
    (f.withGas g).returnData memMax = f.returnData memMax := by
  rw [Frame.returnData_eq, Frame.returnData_eq, Frame.withGas_stack, Frame.withGas_mem]

theorem instrBody_gasBlind {memMax : Nat} {i : Instr} {body : Frame → Except FaultCategory Frame}
    (hi : instrBody memMax i = some body) : GasBlind body := by
  cases i <;> cases hi <;> simp

/-! ### exec and the step -/

/-- The outcome with every gas value of its next state replaced. -/
def withGasResult (g : Nat) : Result → Result
  | .next t => .next (t.withGas g)
  | .fault r => .fault r
  | .refused r => .refused r

/-- STOP and RETURN are the instructions without a body. -/
theorem instrBody_eq_none {memMax : Nat} {i : Instr} (h : instrBody memMax i = none) : i = .stop ∨ i = .ret := by
  cases i <;> simp_all [instrBody]

section Step
variable (g : Nat) (s : State)

theorem onFrame_withGas {body : Frame → Except FaultCategory Frame} (hb : GasBlind body) :
    onFrame body (s.withGas g) = withGasResult g (onFrame body s) := by
  cases hf : s.frame? with
  | none => simp [onFrame, hf, withGasResult]
  | some f => cases hr : body f <;> simp [onFrame, hf, hb g f, hr, Except.map, withGasResult]

theorem execStop_withGas : execStop (s.withGas g) = withGasResult g (execStop s) := by
  cases hf : s.frame? <;> simp [execStop, hf, withGasResult]

theorem execReturn_withGas : execReturn (s.withGas g) = withGasResult g (execReturn s) := by
  cases hf : s.frame? with
  | none => simp [execReturn, hf, withGasResult]
  | some f =>
    cases hd : f.returnData s.config.memMax with
    | error c => simp [execReturn, hf, Frame.returnData_withGas, hd, withGasResult]
    | ok d =>
      simp only [execReturn, State.frame?_withGas, hf, Option.map_some, State.withGas_config, Frame.returnData_withGas, hd]
      exact congrArg _ (State.retire_withGas g { s with retdata := d } f)

theorem exec_withGas (i : Instr) : exec i (s.withGas g) = withGasResult g (exec i s) := by
  cases hb : instrBody s.config.memMax i with
  | some body =>
    rw [exec_eq_onFrame hb, exec_eq_onFrame (s := s.withGas g) hb]
    exact onFrame_withGas g s (instrBody_gasBlind hb)
  | none =>
    rcases instrBody_eq_none hb with rfl | rfl
    · exact execStop_withGas g s
    · exact execReturn_withGas g s

theorem loopPass_withGas (f : Frame) : loopPass (s.withGas g) (f.withGas g) = withGasResult g (loopPass s f) := by
  unfold loopPass
  by_cases hpc : f.pc = f.codeEnd
  · simp [hpc, withGasResult]
  · cases hf : f.fetch <;> simp [hpc, hf, exec_withGas, withGasResult]

theorem step_withGas : step (s.withGas g) = withGasResult g (step s) := by
  cases hr : s.run with
  | halted => rw [step_halted hr, step_halted (s := s.withGas g) hr]; rfl
  | running =>
    cases hf : s.frame? with
    | none => simp [step, loopStep, hr, hf, withGasResult]
    | some f =>
      rw [step_running hr hf, step_running (s := s.withGas g) (f := f.withGas g) hr (by simp [hf])]
      exact loopPass_withGas g s f

end Step

/-- Settles O45: a step commutes with the replacement of the gas values. -/
theorem gasIsInert : Obligations.GasIsInert := by
  intro s t g h
  rw [step_withGas, h, withGasResult]

end Sys2Proof.Machine
end

section
/-! PROOFS. Byte by byte: the little-endian layout determines a Word (00_scope R9, 10_state R22), and the canonical form
determines a byte sequence (10_state R26, log 8). -/

namespace Sys2Proof.Machine

/-! ### The little-endian layout -/

theorem leNat_leBytesFrom (n i : Nat) (v : Word) : leNat (leBytesFrom n i v) = v.toNat / 256 ^ i % 256 ^ n := by
  induction n generalizing i with
  | zero => simp [leBytesFrom, leNat, Nat.mod_one]
  | succ n ih =>
    rw [leBytesFrom, leNat, ih, byteOf_toNat, pow_succ, ← Nat.div_div_eq_div_mul, ← Nat.mod_mul, ← pow_succ']

theorem wordOfLe_le32 (v : Word) : wordOfLe (le32 v) = v := by
  have hv : v.toNat < 256 ^ 32 := v.isLt
  rw [wordOfLe, le32, leNat_leBytesFrom, pow_zero, Nat.div_one, Nat.mod_eq_of_lt hv, BitVec.ofNat_toNat,
    BitVec.setWidth_eq]

theorem leBytesFrom_congr {n i : Nat} {a b : Word} (h : ∀ j, j < i + n → byteOf a j = byteOf b j) :
    leBytesFrom n i a = leBytesFrom n i b := by
  induction n generalizing i with
  | zero => rfl
  | succ n ih => rw [leBytesFrom, leBytesFrom, h i (by omega), ih fun j hj => h j (by omega)]

/-- Settles O16: equal bytes give equal layouts, and the layout reads back as the Word. -/
theorem wordEqualityIsBytewise : Obligations.WordEqualityIsBytewise := by
  refine fun a b => ⟨⟨fun h i _ => by rw [h], fun h => ?_⟩, wordOfLe_le32 a⟩
  have hle : le32 a = le32 b := leBytesFrom_congr fun j hj => h j (by omega)
  calc a = wordOfLe (le32 a) := (wordOfLe_le32 a).symm
    _ = wordOfLe (le32 b) := by rw [hle]
    _ = b := wordOfLe_le32 b

/-! ### The canonical form -/

/-- A canonical byte sequence lists exactly the bytes that do not read as an unlisted one. -/
theorem Memory.mem_cells_iff {m : Memory} (h : m.wf) (c : Host.Cell) :
    c ∈ m.cells ↔ m.read c.1 = c.2 ∧ c.2 ≠ unlistedByte := by
  refine ⟨fun hc => ⟨readCells_of_mem h.1 hc, (h.2 c hc).1⟩, fun ⟨hread, hne⟩ => ?_⟩
  have hmem : (c.1, m.read c.1) ∈ m.cells := readCells_mem (hread.trans_ne hne)
  rwa [hread] at hmem

/-- Strictly rising lists of cells with the same members are the same list. -/
theorem cellsSorted_ext {cells cells' : List Host.Cell} (h : cellsSorted cells) (h' : cellsSorted cells')
    (hmem : ∀ c, c ∈ cells ↔ c ∈ cells') : cells = cells' := by
  have hnodup : ∀ {l : List Host.Cell}, cellsSorted l → l.Nodup := fun hl => hl.imp fun hlt heq => hlt.ne (congrArg _ heq)
  have hperm := (List.perm_ext_iff_of_nodup (hnodup h) (hnodup h')).mpr hmem
  exact hperm.eq_of_pairwise (fun c d _ _ hcd hdc => absurd hcd hdc.asymm) h h'

/-- Settles O29: the two sequences read the same everywhere, so their lists of cells have the same members. -/
theorem canonicalMemoryIsUnique : Obligations.CanonicalMemoryIsUnique := by
  intro m m' h h' hlen hread
  have hall : ∀ a, m.read a = m'.read a := by
    intro a
    by_cases ha : a < m.len
    · exact hread a ha
    · rw [Memory.read_of_len_le h (by omega), Memory.read_of_len_le h' (by omega)]
  have hcells : m.cells = m'.cells := cellsSorted_ext h.1 h'.1 fun c => by
    rw [Memory.mem_cells_iff h, Memory.mem_cells_iff h', hall]
  cases m; cases m'
  simp_all

end Sys2Proof.Machine
end


section
/-! PROOFS. Memory (20_memory R65 to R71): what growth, a store and a copy read as at every address, that the later of two
stores wins, and that MSTORE and RETURN see only the low 64 bits of their offsets and sizes. -/

namespace Sys2Proof.Machine

/-! ### Growth (R66) -/

theorem Memory.byteAt?_of_lt {m : Memory} {a : Nat} (h : a < m.len) : m.byteAt? a = some (m.read a) := if_pos h

/-- Settles O27: growth leaves the cells alone, and a canonical byte sequence lists nothing beyond its old length. -/
theorem memGrowRule : Obligations.MemGrowRule := by
  refine fun memMax n m => ⟨fun h => by rw [Memory.grow_eq, if_pos h], fun h => ?_⟩
  refine ⟨{ m with len := max m.len n }, by rw [Memory.grow_eq, if_neg h.not_gt], rfl, fun a ha => ?_,
    fun hwf a hle hlt => ?_, fun hle => by rw [max_eq_left hle]⟩
  · rw [Memory.byteAt?_of_lt ha, Memory.byteAt?_of_lt (lt_max_of_lt_left ha)]
    rfl
  · rw [Memory.byteAt?_of_lt (lt_max_of_lt_right hlt)]
    exact congrArg some (Memory.read_of_len_le hwf hle)

/-! ### The copy of a range (R67) -/

theorem Memory.read_slice (m : Memory) (addr : Nat) {n k : Nat} (hk : k < n) :
    (m.slice addr n).read k = m.read (addr + k) := by
  obtain ⟨len, cells⟩ := m
  simp only [Memory.read, Memory.slice, Bool.decide_and]
  induction cells with
  | nil => rfl
  | cons c rest ih =>
    obtain ⟨a, b⟩ := c
    by_cases ha : addr ≤ a ∧ a < addr + n
    · have hiff : k = a - addr ↔ addr + k = a := by omega
      simp [ha, readCells, ih, hiff]
    · have hne : addr + k ≠ a := by omega
      simp [ha, readCells, ih, hne]

theorem Memory.slice_zero (m : Memory) (addr : Nat) : m.slice addr 0 = Memory.empty := by
  have hnone : ∀ c ∈ m.cells, ¬ decide (addr ≤ c.1 ∧ c.1 < addr + 0) = true := fun c _ => by simp
  rw [Memory.slice, List.filter_eq_nil_iff.mpr hnone]
  rfl

/-! ### Stores (R68, R71) -/

theorem Memory.write_sorted {m : Memory} (h : cellsSorted m.cells) (addr : Nat) (s : List Byte) :
    cellsSorted (m.write addr s).cells := by
  induction s generalizing m addr with
  | nil => exact h
  | cons b rest ih => exact ih (Memory.writeByte_sorted h addr b) (addr + 1)

theorem Memory.read_write_of_outside {m : Memory} (h : cellsSorted m.cells) {addr a : Nat} {s : List Byte}
    (ha : a < addr ∨ addr + s.length ≤ a) : (m.write addr s).read a = m.read a := by
  induction s generalizing m addr with
  | nil => rfl
  | cons b rest ih =>
    rw [List.length_cons] at ha
    rw [Memory.write, ih (Memory.writeByte_sorted h addr b) (by omega), Memory.read_writeByte h, if_neg (by omega)]

theorem Memory.read_write_add {m : Memory} (h : cellsSorted m.cells) (addr : Nat) {s : List Byte} {k : Nat}
    (hk : k < s.length) : (m.write addr s).read (addr + k) = s[k] := by
  induction s generalizing m addr k with
  | nil => cases hk
  | cons b rest ih =>
    have h' := Memory.writeByte_sorted h addr b
    rw [Memory.write]
    cases k with
    | zero => rw [Memory.read_write_of_outside h' (by omega), Memory.read_writeByte h, if_pos (by omega)]; rfl
    | succ k => rw [← Nat.add_assoc, Nat.add_right_comm, ih h', List.getElem_cons_succ]

/-- Settles O28, from what a slice and a store read as at every address. -/
theorem memReadWriteRules : Obligations.MemReadWriteRules := by
  refine ⟨fun m addr n => ⟨Memory.slice_len m addr n, fun k hk => Memory.read_slice m addr hk, Memory.slice_zero m addr⟩,
    fun m addr s hwf => ⟨Memory.write_len m addr s, fun k hk => ?_, fun a ha => Memory.read_write_of_outside hwf.1 ha⟩⟩
  rw [Memory.read_write_add hwf.1 addr hk, List.getD_eq_getElem _ _ hk]

/-- Reading after the store of a Word at `addr`: its bytes stand most significant first (R62). -/
theorem Memory.read_write_be32 {m : Memory} (h : cellsSorted m.cells) (addr : Nat) (v : Word) (a : Nat) :
    (m.write addr (be32 v)).read a =
      if addr ≤ a ∧ a < addr + 32 then byteOf v (31 - (a - addr)) else m.read a := by
  split
  · next hin =>
    obtain ⟨k, rfl⟩ := Nat.exists_eq_add_of_le hin.1
    have hk : k < 32 := by omega
    have hbyte : (be32 v)[k]? = some (byteOf v (31 - k)) := beBytes_getElem? v hk
    rw [Memory.read_write_add h addr (by simpa using hk), Nat.add_sub_cancel_left]
    exact (List.getElem?_eq_some_iff.mp hbyte).2
  · next hout => exact Memory.read_write_of_outside h (by rw [be32_length]; omega)

/-- Settles O30: the second store is read through first, then the first one. -/
theorem laterStoreWins : Obligations.LaterStoreWins := by
  intro m a1 a2 v1 v2 hwf _ _ a
  rw [Memory.read_write_be32 (Memory.write_sorted hwf.1 a1 _), Memory.read_write_be32 hwf.1]

/-! ### Offsets and sizes (R65) -/

section SetFrame
variable {s : State} {f g : Frame}

/-- Without a current frame there is none to replace. -/
theorem State.setFrame_of_frame?_none (h : s.frame? = none) (g : Frame) : s.setFrame g = s := by
  unfold State.setFrame
  split
  · rfl
  · next i hcur =>
    have hlen : s.chain.length ≤ i := by simpa [State.frame?, hcur] using h
    rw [List.set_eq_of_length_le hlen]

theorem State.frame?_setFrame (h : s.frame? = some f) (g : Frame) : (s.setFrame g).frame? = some g := by
  obtain ⟨i, hc⟩ := State.frame?_eq_some.mp h
  exact State.frame?_of_current (State.setFrame_current hc g)

theorem State.setFrame_with_retdata (s : State) (f : Frame) (d : Memory) :
    { s.setFrame f with retdata := d } = State.setFrame { s with retdata := d } f := by
  cases h : s.cur <;> simp [State.setFrame, h]

/-- A release takes the current frame away, whatever stands in its place. -/
theorem State.release_setFrame (s : State) (f g : Frame) : (s.setFrame g).release f = s.release f := by
  cases h : s.cur <;> simp [State.release, State.setFrame, h, List.eraseIdx_set_eq]

/-- Of the frame that retires only its caller matters (44 R253). -/
theorem State.retire_setFrame_congr (s : State) (h : f.caller = g.caller) :
    (s.setFrame f).retire f = (s.setFrame g).retire g := by
  have hrel : (s.setFrame f).release f = (s.setFrame g).release g := by
    rw [State.release_setFrame, State.release_setFrame, State.release, State.release, h]
  rw [State.retire, State.retire, h, hrel]

/-- A body that does the same on two frames does the same with either as the current one. -/
theorem onFrame_setFrame_congr {body : Frame → Except FaultCategory Frame} (h : body f = body g) :
    onFrame body (s.setFrame f) = onFrame body (s.setFrame g) := by
  cases hs : s.frame? with
  | none => rw [State.setFrame_of_frame?_none hs, State.setFrame_of_frame?_none hs]
  | some f₀ => simp only [onFrame, State.frame?_setFrame hs, h, State.setFrame_setFrame, State.raise_setFrame]

/-- RETURN does the same on two frames with the same caller that hand over the same data. -/
theorem execReturn_setFrame_congr (hcaller : f.caller = g.caller)
    (hdata : f.returnData s.config.memMax = g.returnData s.config.memMax) :
    execReturn (s.setFrame f) = execReturn (s.setFrame g) := by
  cases hs : s.frame? with
  | none => rw [State.setFrame_of_frame?_none hs, State.setFrame_of_frame?_none hs]
  | some f₀ =>
    have hdata' : f.returnData (s.setFrame f).config.memMax = g.returnData (s.setFrame g).config.memMax := by
      rwa [State.setFrame_config, State.setFrame_config]
    simp only [execReturn, State.frame?_setFrame hs, hdata', State.raise_setFrame, State.setFrame_with_retdata,
      State.retire_setFrame_congr _ hcaller]

end SetFrame

section Low64
variable {x x' y y' : Word}

theorem Frame.mstore_congr_low64 (hx : low64 x = low64 x') (memMax : Nat) (f : Frame) (y : Word) (rest : List Word) :
    Frame.mstore memMax { f with stack := x :: y :: rest } = Frame.mstore memMax { f with stack := x' :: y :: rest } := by
  simp only [Frame.mstore_eq, hx]

theorem Frame.returnData_congr_low64 (hx : low64 x = low64 x') (hy : low64 y = low64 y') (memMax : Nat) (f : Frame)
    (rest : List Word) :
    Frame.returnData memMax { f with stack := x :: y :: rest } =
      Frame.returnData memMax { f with stack := x' :: y' :: rest } := by
  simp only [Frame.returnData_eq, hx, hy]

end Low64

/-- Settles O32: the body of MSTORE and the copy of RETURN take `low64` of their operands. -/
theorem offsetsAreLow64Bits : Obligations.OffsetsAreLow64Bits := by
  refine fun s f x y x' y' rest hx => ⟨?_, fun hy => ?_⟩
  · rw [exec_eq_onFrame rfl, exec_eq_onFrame rfl, State.setFrame_config, State.setFrame_config]
    exact onFrame_setFrame_congr (Frame.mstore_congr_low64 hx _ f y rest)
  · exact execReturn_setFrame_congr rfl (Frame.returnData_congr_low64 hx hy _ f rest)

end Sys2Proof.Machine
end

section
/-! PROOFS. The opcode table (30_encoding R98 to R104): its rows in two lists, the one-byte instructions (R91) and the PUSH
family (R92); that every instruction and every opcode byte has its row; what the encoder and the decoder make of each row. -/

namespace Sys2Proof

open Machine

/-! ### A family of the table: `N` and its instruction, the opcode byte a fixed distance above `N` -/

/-- A table numbered from `N = 1` on, as the families of R99 to R101 are. -/
def numbered {α : Type} (table : List α) : List (Nat × α) := table.mapIdx fun k x => (k + 1, x)

theorem pushFamily_eq : pushFamily = numbered pushTable := rfl
theorem dupFamily_eq : dupFamily = numbered dupTable := rfl
theorem swapFamily_eq : swapFamily = numbered swapTable := rfl

section Numbered
variable {α : Type} {table : List α} {n base : Nat} {x : α} {op : Byte}

theorem mem_numbered : (n, x) ∈ numbered table ↔ 1 ≤ n ∧ table[n - 1]? = some x := by
  rw [numbered, List.mem_mapIdx]
  constructor
  · rintro ⟨k, hk, h⟩
    cases h
    exact ⟨Nat.le_add_left 1 k, List.getElem?_eq_getElem hk⟩
  · rintro ⟨hn, hx⟩
    obtain ⟨hk, rfl⟩ := List.getElem?_eq_some_iff.mp hx
    exact ⟨n - 1, hk, by rw [Nat.sub_add_cancel hn]⟩

theorem numbered_bounds (h : (n, x) ∈ numbered table) : 1 ≤ n ∧ n ≤ table.length := by
  obtain ⟨hn, hx⟩ := mem_numbered.mp h
  have hlt := (List.getElem?_eq_some_iff.mp hx).1
  omega

theorem familyOpcode_toNat (h : (n, x) ∈ numbered table) (hbase : base + table.length < 256) :
    (BitVec.ofNat 8 (base + n)).toNat = base + n := by
  obtain ⟨-, hn⟩ := numbered_bounds h
  rw [BitVec.toNat_ofNat, Nat.mod_eq_of_lt (by omega)]

theorem familyOpcode_bounds (h : (n, x) ∈ numbered table) (hbase : base + table.length < 256) :
    base < (BitVec.ofNat 8 (base + n)).toNat ∧ (BitVec.ofNat 8 (base + n)).toNat ≤ base + table.length := by
  have hn := numbered_bounds h
  rw [familyOpcode_toNat h hbase]
  omega

theorem exists_numbered (hlt : base < op.toNat) (hle : op.toNat ≤ base + table.length) :
    ∃ n x, (n, x) ∈ numbered table ∧ BitVec.ofNat 8 (base + n) = op := by
  have hk : op.toNat - base - 1 < table.length := by omega
  refine ⟨op.toNat - base, table[op.toNat - base - 1], mem_numbered.mpr ⟨by omega, List.getElem?_eq_getElem hk⟩, ?_⟩
  rw [Nat.add_sub_cancel' hlt.le, BitVec.ofNat_toNat, BitVec.setWidth_eq]

end Numbered

/-! ### The rows -/

/-- The seven single opcodes (R98). -/
def singleRows : List (Byte × Instr) :=
  [(opStop, .stop), (opAdd, .add), (opMul, .mul), (opSub, .sub), (opPop, .pop), (opMstore, .mstore), (opReturn, .ret)]

/-- The rows of format O (R91): the single opcodes, the DUP family (R100) and the SWAP family (R101). -/
def oneByteRows : List (Byte × Instr) :=
  singleRows ++ dupFamily.map (fun p => (BitVec.ofNat 8 (0x7F + p.1), p.2)) ++
    swapFamily.map (fun p => (BitVec.ofNat 8 (0x8F + p.1), p.2))

section Rows
variable {n : Nat} {mk : Word → Instr} {op : Byte} {i : Instr}

theorem mem_oneByteRows : (op, i) ∈ oneByteRows ↔
    (op, i) ∈ singleRows ∨ (∃ n, (n, i) ∈ numbered dupTable ∧ BitVec.ofNat 8 (0x7F + n) = op) ∨
      ∃ n, (n, i) ∈ numbered swapTable ∧ BitVec.ofNat 8 (0x8F + n) = op := by
  simp only [oneByteRows, dupFamily_eq, swapFamily_eq, List.mem_append, List.mem_map, Prod.exists, Prod.mk.injEq,
    exists_eq_right_right, or_assoc]

theorem mem_pushFamily : (n, mk) ∈ pushFamily ↔ 1 ≤ n ∧ pushTable[n - 1]? = some mk := by
  rw [pushFamily_eq, mem_numbered]

theorem pushFamily_bounds (h : (n, mk) ∈ pushFamily) : 1 ≤ n ∧ n ≤ 32 := numbered_bounds (pushFamily_eq ▸ h)

theorem pushOpcode_toNat (h : (n, mk) ∈ pushFamily) : (BitVec.ofNat 8 (0x5F + n)).toNat = 0x5F + n :=
  familyOpcode_toNat (pushFamily_eq ▸ h) (by decide)

/-- Every instruction has its row: it is a one-byte instruction, or a PUSH with its immediate. -/
theorem instr_cases (i : Instr) :
    (∃ op, (op, i) ∈ oneByteRows) ∨ ∃ mk v, (immediateBytes i, mk) ∈ pushFamily ∧ i = mk v := by
  cases i with
  | push1 v | push2 v | push3 v | push4 v | push5 v | push6 v | push7 v | push8 v
  | push9 v | push10 v | push11 v | push12 v | push13 v | push14 v | push15 v | push16 v
  | push17 v | push18 v | push19 v | push20 v | push21 v | push22 v | push23 v | push24 v
  | push25 v | push26 v | push27 v | push28 v | push29 v | push30 v | push31 v | push32 v =>
    exact .inr ⟨_, v, mem_pushFamily.mpr ⟨by simp [immediateBytes], rfl⟩, rfl⟩
  | _ => exact .inl (by simp [oneByteRows, singleRows, dupFamily, swapFamily])

/-- Every opcode byte has its row, or is unsupported (R103, R104). -/
theorem opcode_cases (op : Byte) :
    (∃ i, (op, i) ∈ oneByteRows) ∨ (∃ n mk, (n, mk) ∈ pushFamily ∧ BitVec.ofNat 8 (0x5F + n) = op) ∨
      UnsupportedByte op.toNat := by
  have hop : op ∈ singleRows.map Prod.fst ∨ (0x5F < op.toNat ∧ op.toNat ≤ 0x7F) ∨ (0x7F < op.toNat ∧ op.toNat ≤ 0x8F) ∨
      (0x8F < op.toNat ∧ op.toNat ≤ 0x9F) ∨ UnsupportedByte op.toNat := by
    simp only [singleRows, List.map_cons, List.map_nil, List.mem_cons, List.not_mem_nil, or_false,
      opStop, opAdd, opMul, opSub, opPop, opMstore, opReturn]
    bv_omega
  rcases hop with hsingle | ⟨hlt, hle⟩ | ⟨hlt, hle⟩ | ⟨hlt, hle⟩ | hu
  · obtain ⟨⟨_, i⟩, h, rfl⟩ := List.mem_map.mp hsingle
    exact .inl ⟨i, mem_oneByteRows.mpr (.inl h)⟩
  · exact .inr (.inl (pushFamily_eq ▸ exists_numbered hlt hle))
  · obtain ⟨n, i, h⟩ := exists_numbered (table := dupTable) hlt hle
    exact .inl ⟨i, mem_oneByteRows.mpr (.inr (.inl ⟨n, h⟩))⟩
  · obtain ⟨n, i, h⟩ := exists_numbered (table := swapTable) hlt hle
    exact .inl ⟨i, mem_oneByteRows.mpr (.inr (.inr ⟨n, h⟩))⟩
  · exact .inr (.inr hu)

/-! ### The encoder on each row -/

theorem oneByteRows_encode : ∀ p ∈ oneByteRows, encode p.2 = [p.1] ∧ p.2.wellFormed = true := by decide

theorem pushFamily_encode (h : (n, mk) ∈ pushFamily) (v : Word) :
    encode (mk v) = BitVec.ofNat 8 (0x5F + n) :: beBytes n v ∧ (mk v).wellFormed = fitsBytes n v := by
  obtain ⟨hn, hle⟩ := pushFamily_bounds h
  obtain ⟨-, hx⟩ := mem_pushFamily.mp h
  interval_cases n <;> cases hx <;> exact ⟨rfl, rfl⟩

/-! ### The decoder on each row -/

theorem decodeRow_familyOpcode {table : List Instr} {base : Nat} (h : (n, i) ∈ numbered table)
    (hbase : base + table.length < 256) (op : Byte) (rest : List Byte) :
    decodeRow table ((BitVec.ofNat 8 (base + n)).toNat - base) op rest = .instr i rest := by
  rw [familyOpcode_toNat h hbase, Nat.add_sub_cancel_left, decodeRow, (mem_numbered.mp h).2]

theorem decode_single (h : (op, i) ∈ singleRows) (rest : List Byte) : decode (op :: rest) = .instr i rest := by
  fin_cases h <;> rfl

theorem decode_oneByte (hrow : (op, i) ∈ oneByteRows) (rest : List Byte) : decode (op :: rest) = .instr i rest := by
  rcases mem_oneByteRows.mp hrow with h | ⟨n, h, rfl⟩ | ⟨n, h, rfl⟩
  · exact decode_single h rest
  · rw [decode_dup (familyOpcode_bounds h (by decide))]
    exact decodeRow_familyOpcode h (by decide) _ rest
  · rw [decode_swap (familyOpcode_bounds h (by decide))]
    exact decodeRow_familyOpcode h (by decide) _ rest

theorem decode_pushFamily (h : (n, mk) ∈ pushFamily) (bytes : List Byte) :
    decode (BitVec.ofNat 8 (0x5F + n) :: bytes) =
      if bytes.length < n then .truncated n else .instr (mk (beWord (bytes.take n))) (bytes.drop n) := by
  have hn := pushFamily_bounds h
  have hop := pushOpcode_toNat h
  rw [decode_push (by omega), hop, Nat.add_sub_cancel_left, decodePush, (mem_pushFamily.mp h).2]

theorem decode_push_append (h : (n, mk) ∈ pushFamily) {imm : List Byte} (hlen : imm.length = n) (rest : List Byte) :
    decode (BitVec.ofNat 8 (0x5F + n) :: (imm ++ rest)) = .instr (mk (beWord imm)) rest := by
  subst hlen
  rw [decode_pushFamily h, if_neg (by simp), List.take_left, List.drop_left]

theorem decode_unsupported (h : UnsupportedByte op.toNat) (rest : List Byte) : decode (op :: rest) = .unsupported op := by
  rw [decode_of_ne (by omega), decodeFamily, if_neg (by omega), if_neg (by omega), if_neg (by omega)]

/-- What the decoder accepts is a row, with all of its immediate bytes. -/
theorem decode_eq_instr {bytes rest : List Byte} (h : decode (op :: bytes) = .instr i rest) :
    ((op, i) ∈ oneByteRows ∧ bytes = rest) ∨
    ∃ n mk imm, (n, mk) ∈ pushFamily ∧ BitVec.ofNat 8 (0x5F + n) = op ∧ imm.length = n ∧ bytes = imm ++ rest ∧
      i = mk (beWord imm) := by
  rcases opcode_cases op with ⟨j, hj⟩ | ⟨n, mk, hmk, rfl⟩ | hu
  · rw [decode_oneByte hj] at h
    cases h
    exact .inl ⟨hj, rfl⟩
  · rw [decode_pushFamily hmk] at h
    split at h
    · cases h
    · next hlen =>
      cases h
      exact .inr ⟨n, mk, bytes.take n, hmk, rfl, List.length_take_of_le (Nat.not_lt.mp hlen),
        (List.take_append_drop n bytes).symm, rfl⟩
  · rw [decode_unsupported hu] at h
    cases h

end Rows

end Sys2Proof
end

section
/-! PROOFS. The statements about the encoding (30_encoding R91 to R95, R104, R111), from the rows of the opcode table. -/

namespace Sys2Proof

open Machine

/-! ### Decoding and encoding are inverse -/

theorem fitsBytes_iff {n : Nat} {v : Word} : fitsBytes n v = true ↔ v.toNat < 256 ^ n := by
  rw [fitsBytes, decide_eq_true_iff, pow_mul, show 2 ^ 8 = 256 by rfl]

theorem beWord_beBytes {n : Nat} {v : Word} (h : fitsBytes n v = true) : beWord (beBytes n v) = v := by
  rw [beWord, beNat_beBytes, Nat.mod_eq_of_lt (fitsBytes_iff.mp h), BitVec.ofNat_toNat, BitVec.setWidth_eq]

theorem fitsBytes_beWord {imm : List Byte} (h : imm.length ≤ 32) : fitsBytes imm.length (beWord imm) = true := by
  rw [fitsBytes_iff, beWord_toNat h]
  exact beNat_lt imm

theorem decode_encode {i : Instr} (hwf : i.wellFormed = true) (rest : List Byte) :
    decode (encode i ++ rest) = .instr i rest := by
  rcases instr_cases i with ⟨op, h⟩ | ⟨mk, v, h, hi⟩
  · rw [(oneByteRows_encode _ h).1]
    exact decode_oneByte h rest
  · obtain ⟨henc, hfits⟩ := pushFamily_encode h v
    rw [← hi] at henc hfits
    rw [henc, List.cons_append, decode_push_append h (beBytes_length _ v), beWord_beBytes (hfits ▸ hwf), ← hi]

/-- Settles O1, row by row: the immediate of a PUSH reads back, since it is a value of `N` bytes. -/
theorem decodeOfEncodeGivesInstrBack : Obligations.DecodeOfEncodeGivesInstrBack := fun _ rest hwf => decode_encode hwf rest

/-- Settles O2: the decoder takes whole rows, and the immediate bytes of a PUSH are written back as they were. -/
theorem encodeOfDecodeGivesBytesBack : Obligations.EncodeOfDecodeGivesBytesBack := by
  rintro (_ | ⟨op, bytes⟩) i rest h
  · cases h
  rcases decode_eq_instr h with ⟨hrow, rfl⟩ | ⟨n, mk, imm, hrow, rfl, rfl, rfl, rfl⟩
  · obtain ⟨henc, hwf⟩ := oneByteRows_encode _ hrow
    exact ⟨hwf, by rw [henc]; rfl⟩
  · obtain ⟨henc, hfits⟩ := pushFamily_encode hrow (beWord imm)
    have hlen := (pushFamily_bounds hrow).2
    exact ⟨hfits.trans (fitsBytes_beWord hlen), by rw [henc, beBytes_beWord hlen]; rfl⟩

/-- Settles O5: no one-byte row stands in the PUSH range, and PUSH`N` has the opcode byte `0x5F + N`. -/
theorem lengthFromOpcodeByte : Obligations.LengthFromOpcodeByte := by
  intro op bytes i rest h
  rcases decode_eq_instr h with ⟨hrow, rfl⟩ | ⟨n, mk, imm, hrow, rfl, rfl, rfl, -⟩
  · have hout : ∀ p ∈ oneByteRows, ¬ (0x60 ≤ p.1.toNat ∧ p.1.toNat ≤ 0x7F) := by decide
    rw [if_neg (hout _ hrow), List.length_cons, Nat.add_comm]
  · have hbounds := pushFamily_bounds hrow
    rw [pushOpcode_toNat hrow, if_pos (by omega), List.length_cons, List.length_append]
    omega

/-! ### Unsupported bytes (R104) -/

theorem decode_eq_unsupported_iff (op : Byte) (rest : List Byte) :
    decode (op :: rest) = .unsupported op ↔ UnsupportedByte op.toNat := by
  refine ⟨fun h => ?_, fun h => decode_unsupported h rest⟩
  rcases opcode_cases op with ⟨i, hi⟩ | ⟨n, mk, hmk, rfl⟩ | hu
  · rw [decode_oneByte hi] at h
    cases h
  · rw [decode_pushFamily hmk] at h
    split at h <;> cases h
  · exact hu

theorem Machine.Frame.codeAhead_eq_cons {f : Frame} {op : Byte} (hpc : f.pc < f.codeEnd) (hop : f.code[f.pc]? = some op) :
    f.codeAhead = op :: (f.code.take f.codeEnd).drop (f.pc + 1) := by
  have htake : (f.code.take f.codeEnd)[f.pc]? = some op := by rwa [List.getElem?_take_of_lt hpc]
  obtain ⟨hlt, hget⟩ := List.getElem?_eq_some_iff.mp htake
  rw [Frame.codeAhead, List.drop_eq_getElem_cons hlt, hget]

theorem unsupportedByte_count : ((List.range 256).filter fun v => decide (UnsupportedByte v)).length = 185 := by rfl

/-- Settles O4: the bytes without a row, their number by counting, and the branch of the loop that takes the fault. -/
theorem unsupportedBytesFault : Obligations.UnsupportedBytesFault := by
  refine ⟨decode_eq_unsupported_iff, unsupportedByte_count, fun s i f op hr hc hpc _ hop hu => ?_⟩
  have hfetch : f.fetch = .unsupported op := by
    rw [Frame.fetch, Frame.codeAhead_eq_cons hpc hop]
    exact decode_unsupported hu _
  rw [step_running hr (State.frame?_of_current hc), loopPass, if_neg hpc.ne, hfetch]
  exact congrArg _ (State.raise_setFrame s _ _)

/-! ### The immediate (R95) -/

theorem Machine.beNat_eq_sum (imm : List Byte) :
    beNat imm = ((List.range imm.length).map fun j => (imm.getD j 0#8).toNat * 256 ^ (imm.length - 1 - j)).sum := by
  induction imm with
  | nil => rfl
  | cons b rest ih =>
    rw [beNat, ih, List.length_cons, List.range_succ_eq_map, List.map_cons, List.sum_cons, List.map_map]
    congr 3
    funext j
    simp [Nat.sub_sub, Nat.add_comm]

theorem Machine.byteOf_beWord_of_lt {imm : List Byte} (hlen : imm.length ≤ 32) {i : Nat} (hi : i < imm.length) :
    byteOf (beWord imm) i = imm.getD (imm.length - 1 - i) 0#8 := by
  have hbyte := beBytes_getElem? (beWord imm) (show imm.length - 1 - i < imm.length by omega)
  rw [beBytes_beWord hlen, show imm.length - 1 - (imm.length - 1 - i) = i by omega] at hbyte
  rw [List.getD_eq_getElem?_getD, hbyte, Option.getD_some]

theorem Machine.byteOf_beWord_of_le {imm : List Byte} (hlen : imm.length ≤ 32) {i : Nat} (hi : imm.length ≤ i) :
    byteOf (beWord imm) i = 0#8 := by
  have hlt : beNat imm < 256 ^ i := (beNat_lt imm).trans_le (Nat.pow_le_pow_right (by decide) hi)
  apply BitVec.eq_of_toNat_eq
  rw [byteOf_toNat, beWord_toNat hlen, Nat.div_eq_of_lt hlt]
  rfl

/-- Settles O6: the value is `be` of the bytes, each byte of it is read back from `beBytes`, and a PUSH row takes them. -/
theorem pushImmediateIsBigEndian : Obligations.PushImmediateIsBigEndian := by
  refine ⟨fun imm hlen => ⟨?_, fun i hi => byteOf_beWord_of_lt hlen hi, fun i hi _ => byteOf_beWord_of_le hlen hi⟩,
    fun p hp imm rest hlen => decode_push_append hp hlen rest, by decide⟩
  rw [beWord_toNat hlen, beNat_eq_sum]

/-! ### Listings (R109, R111) -/

/-- One turn of the walk: the instruction the decoder reads, then the rest of the buffer. -/
theorem disassembleUpTo_of_decode {bytes rest : List Byte} {i : Instr} (h : decode bytes = .instr i rest) (fuel : Nat) :
    disassembleUpTo (fuel + 1) bytes = (disassembleUpTo fuel rest).map (i :: ·) := by
  cases bytes with
  | nil => cases h
  | cons op bytes => rw [disassembleUpTo, h]

theorem disassembleUpTo_assemble {listing : List Instr} (hwf : ∀ i ∈ listing, i.wellFormed = true) {fuel : Nat}
    (hfuel : listing.length ≤ fuel) : disassembleUpTo fuel (assemble listing) = some listing := by
  induction listing generalizing fuel with
  | nil => cases fuel <;> rfl
  | cons i listing ih =>
    obtain ⟨hi, hwf⟩ := List.forall_mem_cons.mp hwf
    cases fuel with
    | zero => cases hfuel
    | succ fuel =>
      have hdecode : decode (assemble (i :: listing)) = .instr i (assemble listing) := decode_encode hi _
      rw [disassembleUpTo_of_decode hdecode, ih hwf (Nat.le_of_succ_le_succ hfuel), Option.map_some]

/-- An instruction has at least its opcode byte (R90). -/
theorem length_le_length_assemble (listing : List Instr) : listing.length ≤ (assemble listing).length := by
  induction listing with
  | nil => rfl
  | cons i listing ih =>
    have hlen : (assemble (i :: listing)).length = (encode i).length + (assemble listing).length := List.length_append
    have := encode_length i
    rw [List.length_cons]
    omega

/-- Settles O8: the walk reads one instruction at a turn, and the buffer has at least a byte for each. -/
theorem disassembleOfAssemble : Obligations.DisassembleOfAssemble := fun listing hwf =>
  disassembleUpTo_assemble hwf (length_le_length_assemble listing)

/-- Settles O3, by decoding the fourteen words. -/
theorem tableWordsDecode : Obligations.TableWordsDecode := by
  unfold Obligations.TableWordsDecode
  decide

end Sys2Proof
end

section
/-! PROOFS. Word arithmetic (40_word_arithmetic R120 to R135): the MAU functions are the ring operations of 256-bit words, the
byte-serial loops compute them, and ADD, MUL and SUB put them on the stack. -/

namespace Sys2Proof.Machine

/-! ### The MAU is the ring of the integers modulo 2^256 (R120 to R122, R130, R131) -/

theorem ofNat_toNat_word (a : Word) : BitVec.ofNat 256 a.toNat = a := by rw [BitVec.ofNat_toNat, BitVec.setWidth_eq]

theorem mauAdd_eq (a b : Word) : mauAdd a b = a + b := by
  rw [mauAdd, BitVec.ofNat_add, ofNat_toNat_word, ofNat_toNat_word]

theorem mauMul_eq (a b : Word) : mauMul a b = a * b := by
  rw [mauMul, BitVec.ofNat_mul, ofNat_toNat_word, ofNat_toNat_word]

theorem mauSub_eq (a b : Word) : mauSub a b = a - b := by
  rw [mauSub, sub_eq_add_neg, BitVec.ofInt_add, BitVec.ofInt_neg, BitVec.ofInt_natCast, BitVec.ofInt_natCast,
    ofNat_toNat_word, ofNat_toNat_word, sub_eq_add_neg]

theorem mauSub_toNat_of_le {a b : Word} (h : b.toNat ≤ a.toNat) : (mauSub a b).toNat = a.toNat - b.toNat := by
  rw [mauSub_eq, BitVec.toNat_sub_of_le (BitVec.le_def.mpr h)]

theorem mauSub_toNat_of_lt {a b : Word} (h : a.toNat < b.toNat) : (mauSub a b).toNat = 2 ^ 256 + a.toNat - b.toNat := by
  rw [mauSub_eq, BitVec.toNat_sub_of_lt (BitVec.lt_def.mpr h)]
  omega

/-- Settles O9: the sum by its definition, the difference by the two cases of R121. -/
theorem mauModularSumAndDifference : Obligations.MauModularSumAndDifference := by
  refine ⟨fun a b => BitVec.toNat_ofNat _ _, fun a b => ?_, by decide⟩
  split
  · next h => exact mauSub_toNat_of_le h
  · next h => exact mauSub_toNat_of_lt (Nat.lt_of_not_le h)

/-- Settles O10: `ofInt` is multiplicative, so either reading of the operands gives the product of the words. -/
theorem mauModularProduct : Obligations.MauModularProduct := by
  refine ⟨fun a b => ⟨BitVec.toNat_ofNat _ _, ?_⟩, by decide⟩
  rw [BitVec.ofInt_mul, BitVec.ofInt_toInt, BitVec.ofInt_toInt, mauMul_eq]

/-- Settles O11, as laws of the ring of 256-bit words. -/
theorem mauInverseLaws : Obligations.MauInverseLaws := by
  intro a b
  simp only [mauAdd_eq, mauSub_eq, mauMul_eq]
  exact ⟨add_sub_cancel_right a b, sub_add_cancel a b, mul_zero a, mul_one a⟩

/-- Settles O12, as laws of the ring of 256-bit words; the greatest Word is `-1`. -/
theorem mauRingLaws : Obligations.MauRingLaws := by
  intro a b c
  have hmax : BitVec.ofNat 256 (2 ^ 256 - 1) = -1 := by decide
  simp only [mauAdd_eq, mauSub_eq, mauMul_eq, hmax, zero_sub]
  exact ⟨add_comm a b, mul_comm a b, add_assoc a b c, mul_assoc a b c, mul_add a b c, add_zero a, sub_zero a, sub_self a,
    BitVec.toNat_neg a, sub_eq_add_neg a b, mul_neg_one a, zero_mul a, one_mul a⟩

/-! ### Little-endian byte lists (00_scope R9) -/

theorem leBytesFrom_length (n i : Nat) (v : Word) : (leBytesFrom n i v).length = n := by
  induction n generalizing i with
  | zero => rfl
  | succ n ih => rw [leBytesFrom, List.length_cons, ih]

theorem le32_length (v : Word) : (le32 v).length = 32 := leBytesFrom_length 32 0 v

theorem leNat_le32 (v : Word) : leNat (le32 v) = v.toNat := by
  have hv : v.toNat < 256 ^ 32 := v.isLt
  rw [le32, leNat_leBytesFrom, pow_zero, Nat.div_one, Nat.mod_eq_of_lt hv]

theorem leNat_lt (s : List Byte) : leNat s < 256 ^ s.length := by
  induction s with
  | nil => exact Nat.one_pos
  | cons b s ih =>
    have hb := b.isLt
    rw [leNat, List.length_cons, pow_succ]
    omega

theorem leNat_append (s t : List Byte) : leNat (s ++ t) = leNat s + 256 ^ s.length * leNat t := by
  induction s with
  | nil => simp [leNat]
  | cons b s ih => rw [List.cons_append, leNat, leNat, ih, List.length_cons, pow_succ]; ring

theorem leNat_replicate_zero (n : Nat) : leNat (List.replicate n 0#8) = 0 := by
  induction n with
  | zero => rfl
  | succ n ih => rw [List.replicate_succ, leNat, ih]; rfl

/-- A Word keeps the low 32 bytes of a longer sequence, and so loses what stands above them. -/
theorem wordOfLe_take {s : List Byte} (h : 32 ≤ s.length) : wordOfLe (s.take 32) = BitVec.ofNat 256 (leNat s) := by
  have hsplit : leNat s = leNat (s.take 32) + 2 ^ 256 * leNat (s.drop 32) := by
    conv_lhs => rw [← List.take_append_drop 32 s, leNat_append, List.length_take_of_le h]
    rfl
  apply BitVec.eq_of_toNat_eq
  rw [wordOfLe, hsplit, BitVec.toNat_ofNat, BitVec.toNat_ofNat, Nat.add_mul_mod_self_left]

/-- A byte of a sum with the carry that goes up from it. -/
theorem lowByte_add_carry (t : Nat) : (BitVec.ofNat 8 t).toNat + 256 * (t / 256) = t := by
  rw [BitVec.toNat_ofNat]
  exact Nat.mod_add_div t 256

/-! ### The loop of `add` (R133) -/

theorem addBytes_length {as bs : List Byte} (h : as.length = bs.length) (carry : Nat) :
    (addBytes as bs carry).1.length = as.length := by
  induction as generalizing bs carry with
  | nil => rfl
  | cons a as ih =>
    obtain ⟨b, bs, rfl⟩ := List.exists_cons_of_length_eq_add_one h.symm
    exact congrArg (· + 1) (ih (Nat.succ.inj h) _)

/-- The result bytes, with the final carry above them, hold the sum of the bytes and the first carry. -/
theorem leNat_addBytes {as bs : List Byte} (h : as.length = bs.length) (carry : Nat) :
    leNat (addBytes as bs carry).1 + 256 ^ as.length * (addBytes as bs carry).2 = leNat as + leNat bs + carry := by
  induction as generalizing bs carry with
  | nil =>
    obtain rfl := List.length_eq_zero_iff.mp h.symm
    simp [addBytes, leNat]
  | cons a as ih =>
    obtain ⟨b, bs, rfl⟩ := List.exists_cons_of_length_eq_add_one h.symm
    have hrest := ih (Nat.succ.inj h) ((a.toNat + b.toNat + carry) / 256)
    have hbyte := lowByte_add_carry (a.toNat + b.toNat + carry)
    simp only [addBytes, leNat, List.length_cons, pow_succ]
    linarith

/-- Settles O13: the 32 result bytes are the sum's remainder by `2^256` and the carry is its quotient. -/
theorem byteSerialAddIsModularSum : Obligations.ByteSerialAddIsModularSum := by
  intro a b
  have hlen := (le32_length a).trans (le32_length b).symm
  have hsum := leNat_addBytes hlen 0
  have hlt := leNat_lt (addBytes (le32 a) (le32 b) 0).1
  rw [leNat_le32, leNat_le32, le32_length, show 256 ^ 32 = 2 ^ 256 by rfl, Nat.add_zero] at hsum
  rw [addBytes_length hlen, le32_length, show 256 ^ 32 = 2 ^ 256 by rfl] at hlt
  constructor
  · apply BitVec.eq_of_toNat_eq
    rw [mauAddSerial, wordOfLe, mauAdd, ← hsum, BitVec.toNat_ofNat, BitVec.toNat_ofNat, Nat.add_mul_mod_self_left]
  · rw [← hsum, Nat.add_mul_div_left _ _ (by decide), Nat.div_eq_of_lt hlt, Nat.zero_add]

/-! ### The loop of `sub` (R134) -/

/-- A byte of a difference with the borrow taken from above it. -/
theorem lowByte_sub_borrow {t : Int} (hlo : -256 ≤ t) (hhi : t < 256) :
    ((BitVec.ofInt 8 (if t < 0 then t + 256 else t)).toNat : Int) = t + 256 * if t < 0 then 1 else 0 := by
  rw [BitVec.toNat_ofInt]
  split <;> omega

theorem subBytes_cons (a b : Byte) (as bs : List Byte) (borrow : Int) :
    subBytes (a :: as) (b :: bs) borrow =
      let t : Int := (a.toNat : Int) - (b.toNat : Int) - borrow
      let r := subBytes as bs (if t < 0 then 1 else 0)
      (BitVec.ofInt 8 (if t < 0 then t + 256 else t) :: r.1, r.2) := by
  simp only [subBytes]
  split <;> rfl

theorem subBytes_length {as bs : List Byte} (h : as.length = bs.length) (borrow : Int) :
    (subBytes as bs borrow).1.length = as.length := by
  induction as generalizing bs borrow with
  | nil => rfl
  | cons a as ih =>
    obtain ⟨b, bs, rfl⟩ := List.exists_cons_of_length_eq_add_one h.symm
    rw [subBytes_cons]
    exact congrArg (· + 1) (ih (Nat.succ.inj h) _)

/-- The borrow is one bit in, one bit out, and the result bytes hold the difference with the final borrow added above them. -/
theorem leNat_subBytes {as bs : List Byte} (h : as.length = bs.length) {borrow : Int} (hborrow : borrow = 0 ∨ borrow = 1) :
    ((subBytes as bs borrow).2 = 0 ∨ (subBytes as bs borrow).2 = 1) ∧
      (leNat (subBytes as bs borrow).1 : Int) =
        leNat as - leNat bs - borrow + 256 ^ as.length * (subBytes as bs borrow).2 := by
  induction as generalizing bs borrow with
  | nil =>
    obtain rfl := List.length_eq_zero_iff.mp h.symm
    exact ⟨hborrow, by simp [subBytes, leNat]⟩
  | cons a as ih =>
    obtain ⟨b, bs, rfl⟩ := List.exists_cons_of_length_eq_add_one h.symm
    have ha := a.isLt
    have hb := b.isLt
    have hbyte := lowByte_sub_borrow (t := (a.toNat : Int) - b.toNat - borrow) (by omega) (by omega)
    obtain ⟨hbit, hrest⟩ := ih (Nat.succ.inj h) (borrow := if (a.toNat : Int) - b.toNat - borrow < 0 then 1 else 0)
      (by split <;> simp)
    rw [subBytes_cons]
    refine ⟨hbit, ?_⟩
    simp only [leNat, List.length_cons, pow_succ, Nat.cast_add, Nat.cast_mul, hrest, hbyte]
    push_cast
    ring

/-- Settles O14: the 32 result bytes are at least 0 and below `2^256`, so the borrow is the sign of the difference. -/
theorem byteSerialSubIsModularDifference : Obligations.ByteSerialSubIsModularDifference := by
  intro a b
  have hlen := (le32_length a).trans (le32_length b).symm
  obtain ⟨hbit, hdiff⟩ := leNat_subBytes hlen (.inl rfl)
  have hlt := leNat_lt (subBytes (le32 a) (le32 b) 0).1
  rw [leNat_le32, leNat_le32, le32_length, show (256 : Int) ^ 32 = 2 ^ 256 by rfl, sub_zero] at hdiff
  rw [subBytes_length hlen, le32_length, show 256 ^ 32 = 2 ^ 256 by rfl] at hlt
  constructor
  · rw [mauSubSerial, wordOfLe, mauSub, ← BitVec.ofInt_natCast, hdiff]
    apply BitVec.eq_of_toNat_eq
    rw [BitVec.toNat_ofInt, BitVec.toNat_ofInt]
    congr 1
    exact Int.add_mul_emod_self_left _ _ _
  · have ha := a.isLt
    have hb := b.isLt
    split <;> omega

/-! ### The loops of `mul` (R135) -/

theorem mulRow_length (a : Byte) (bs scratch : List Byte) (carry : Nat) :
    (mulRow a bs scratch carry).length = scratch.length := by
  induction bs, scratch, carry using mulRow.induct a with
  | case1 b bs s ss carry t ih => exact congrArg (· + 1) ih
  | case2 s ss carry => rfl
  | case3 bs carry => cases bs <;> rfl

/-- A row ends at the scratch byte that takes its carry. -/
theorem mulRow_append (a : Byte) {bs low : List Byte} (h : low.length = bs.length) (s : Byte) (high : List Byte)
    (carry : Nat) : mulRow a bs (low ++ s :: high) carry = mulRow a bs (low ++ [s]) carry ++ high := by
  induction bs generalizing low carry with
  | nil =>
    obtain rfl := List.length_eq_zero_iff.mp h
    rfl
  | cons b bs ih =>
    obtain ⟨x, low, rfl⟩ := List.exists_cons_of_length_eq_add_one h
    exact congrArg (_ :: ·) (ih (Nat.succ.inj h) _)

/-- One row adds `a · B` and the carry; the carry stays a byte, so it fits the scratch byte after the row. -/
theorem leNat_mulRow (a : Byte) {bs low : List Byte} (h : low.length = bs.length) (s : Byte) {carry : Nat}
    (hcarry : carry < 256) :
    leNat (mulRow a bs (low ++ [s]) carry) = leNat low + a.toNat * leNat bs + carry := by
  induction bs generalizing low carry with
  | nil =>
    obtain rfl := List.length_eq_zero_iff.mp h
    simp [mulRow, leNat, Nat.mod_eq_of_lt hcarry]
  | cons b bs ih =>
    obtain ⟨x, low, rfl⟩ := List.exists_cons_of_length_eq_add_one h
    have hprod : a.toNat * b.toNat ≤ 255 * 255 :=
      Nat.mul_le_mul (Nat.le_of_lt_succ a.isLt) (Nat.le_of_lt_succ b.isLt)
    have hx := x.isLt
    have hrest := ih (Nat.succ.inj h) (carry := (x.toNat + a.toNat * b.toNat + carry) / 256) (by omega)
    have hbyte := lowByte_add_carry (x.toNat + a.toNat * b.toNat + carry)
    simp only [List.cons_append, mulRow, leNat, hrest]
    linarith

/-- The rows keep the length, and add `A · B` to the low bytes of a scratch buffer whose upper bytes are still zero. -/
theorem mulRows_spec (as : List Byte) {bs low : List Byte} (h : low.length = bs.length) :
    (mulRows as bs (low ++ List.replicate as.length 0#8)).length = low.length + as.length ∧
      leNat (mulRows as bs (low ++ List.replicate as.length 0#8)) = leNat low + leNat as * leNat bs := by
  induction as generalizing low with
  | nil => simp [mulRows, leNat]
  | cons a as ih =>
    have hrow := leNat_mulRow a h 0#8 (carry := 0) (by decide)
    obtain ⟨x, row, heq⟩ := List.exists_cons_of_length_eq_add_one
      ((mulRow_length a bs (low ++ [0#8]) 0).trans List.length_append)
    have hlen : row.length = low.length := by simpa [heq] using mulRow_length a bs (low ++ [0#8]) 0
    obtain ⟨hlength, hvalue⟩ := ih (hlen.trans h)
    rw [heq, leNat] at hrow
    rw [List.length_cons, List.replicate_succ, mulRows, mulRow_append a h, heq, List.cons_append, leNat]
    constructor
    · simp only [List.length_cons, hlength, hlen, Nat.add_assoc]
    · simp only [leNat, hvalue]
      linarith

/-- Settles O15: the scratch buffer is the 32 zero bytes the rows add to and one more for each row's carry. -/
theorem byteSerialMulIsExactProduct : Obligations.ByteSerialMulIsExactProduct := by
  intro a b
  have hspec := mulRows_spec (le32 a) (List.length_replicate.trans (le32_length b).symm : (List.replicate 32 0#8).length = _)
  rw [le32_length, List.replicate_append_replicate, List.length_replicate, leNat_replicate_zero, leNat_le32, leNat_le32,
    Nat.zero_add] at hspec
  obtain ⟨hlength, hproduct⟩ : (mulScratch a b).length = 64 ∧ leNat (mulScratch a b) = a.toNat * b.toNat := hspec
  refine ⟨hlength, hproduct, ?_⟩
  rw [mauMulSerial, wordOfLe_take (by omega), hproduct, mauMul]

/-! ### ADD, MUL and SUB (R125 to R128) -/

section Binary
variable {i : Instr} {op : Word → Word → Word} {s : State} {k : Nat} {f : Frame}

theorem exec_binary_of_two_entries (hi : instrBody s.config.memMax i = some (Frame.binary op)) (hc : s.Current k f)
    {a b : Word} {rest : List Word} (hstack : f.stack = b :: a :: rest) (hdepth : f.depth ≤ 1024) :
    exec i s = .next { s with chain := s.chain.set k { f with stack := op a b :: rest } } := by
  have hroom : ¬ stackMax ≤ rest.length := by
    rw [Frame.depth, hstack, List.length_cons, List.length_cons] at hdepth
    rw [stackMax]
    omega
  have hbody : f.binary op = .ok { f with stack := op a b :: rest } := by
    rw [Frame.binary_eq, hstack]
    exact if_neg hroom
  rw [exec_of_current hi hc, hbody]

theorem exec_binary_of_underflow (hi : instrBody s.config.memMax i = some (Frame.binary op)) (hc : s.Current k f)
    (hdepth : f.depth < 2) : exec i s = .next (s.raise .stackUnderflow) := by
  have hbody : f.binary op = .error .stackUnderflow := by
    rw [Frame.binary, Frame.require, if_neg (Nat.not_le_of_lt hdepth)]
    rfl
  rw [exec_of_current hi hc, hbody]

end Binary

/-- Settles O19: the body of ADD is `Frame.binary mauAdd`. -/
theorem addInstruction : Obligations.AddInstruction :=
  ⟨rfl, fun _ _ _ hc => ⟨fun _ _ _ => exec_binary_of_two_entries (op := mauAdd) rfl hc, exec_binary_of_underflow rfl hc⟩⟩

/-- Settles O20: the body of MUL is `Frame.binary mauMul`. -/
theorem mulInstruction : Obligations.MulInstruction :=
  ⟨rfl, fun _ _ _ hc => ⟨fun _ _ _ => exec_binary_of_two_entries (op := mauMul) rfl hc, exec_binary_of_underflow rfl hc⟩⟩

/-- Settles O21: the body of SUB is `Frame.binary mauSub`, its operands the second entry and the top. -/
theorem subInstruction : Obligations.SubInstruction :=
  ⟨rfl, fun _ _ _ hc => ⟨fun _ _ _ => exec_binary_of_two_entries (op := mauSub) rfl hc, exec_binary_of_underflow rfl hc⟩⟩

end Sys2Proof.Machine
end

section
/-! PROOFS. The stack (41_stack_ops R150 to R157): what the primitives answer, the LIFO law, and POP, DUP and SWAP, whose
bodies are put on the current frame by `exec_of_body_ok` and `exec_of_body_error`. -/

namespace Sys2Proof.Machine

/-! ### The primitives (R150 to R152) -/

section Primitives
variable {f g : Frame} {v : Word} {n : Nat}

theorem Frame.push_of_room (h : f.depth < 1024) (v : Word) : f.push v = .ok { f with stack := v :: f.stack } :=
  if_neg (Nat.not_le_of_lt h)

theorem Frame.push_of_full (h : f.depth = 1024) (v : Word) : f.push v = .error .stackOverflow := if_pos h.ge

theorem Frame.push_ok (h : f.push v = .ok g) : f.depth < 1024 ∧ g = { f with stack := v :: f.stack } := by
  unfold Frame.push at h
  split at h
  · cases h
  · next hroom =>
    cases h
    exact ⟨Nat.lt_of_not_le hroom, rfl⟩

theorem Frame.pop_of_nil (h : f.stack = []) : f.pop = .error .stackUnderflow := by rw [Frame.pop, h]

theorem Frame.pop_of_cons {rest : List Word} (h : f.stack = v :: rest) : f.pop = .ok (v, { f with stack := rest }) := by
  rw [Frame.pop, h]

theorem Frame.pop_ok (h : f.pop = .ok (v, g)) : ∃ rest, f.stack = v :: rest ∧ g = { f with stack := rest } := by
  unfold Frame.pop at h
  split at h
  · cases h
  · next rest hstack =>
    cases h
    exact ⟨rest, hstack, rfl⟩

theorem Frame.peek_of_depth_le (h : f.depth ≤ n) : f.peek n = .error .stackUnderflow := by
  rw [Frame.peek, List.getElem?_eq_none h]

theorem Frame.peek_of_getElem? (h : f.stack[n]? = some v) : f.peek n = .ok v := by rw [Frame.peek, h]

theorem Frame.poke_depth (f : Frame) (n : Nat) (v : Word) : (f.poke n v).depth = f.depth := List.length_set

theorem Frame.peek_poke (h : n < f.depth) (v : Word) : (f.poke n v).peek n = .ok v :=
  Frame.peek_of_getElem? (List.getElem?_set_self h)

theorem Frame.poke_stack_of_ne {k : Nat} (h : k ≠ n) (f : Frame) (v : Word) : (f.poke n v).stack[k]? = f.stack[k]? :=
  List.getElem?_set_ne h.symm

end Primitives

/-- Settles O17, case by case of R150 to R152. -/
theorem stackPrimitives : Obligations.StackPrimitives := fun f =>
  ⟨fun v h => Frame.push_of_full h v, fun v h => Frame.push_of_room h v, Frame.pop_of_nil, fun _ _ => Frame.pop_of_cons,
    fun _ => Frame.peek_of_depth_le, fun _ _ => Frame.peek_of_getElem?,
    fun n v h => ⟨Frame.poke_depth f n v, Frame.peek_poke h v, fun _ hk => Frame.poke_stack_of_ne hk f v⟩⟩

/-! ### Last in, first out (R153) -/

/-- Settles O18: each pop finds the stack as the push before it left it. -/
theorem stackLifoLaw : Obligations.StackLifoLaw := by
  refine ⟨fun f v1 v2 h => ?_, fun f v h => ?_, fun f g v _ hpush => ?_, fun f g v h hpop => ?_⟩
  · have hsecond := Frame.push_of_room (f := { f with stack := v1 :: f.stack }) (Nat.succ_lt_succ (Nat.lt_succ_of_le h)) v2
    exact ⟨_, _, _, Frame.push_of_room (by omega) v1, hsecond, Frame.pop_of_cons rfl, Frame.pop_of_cons rfl⟩
  · exact ⟨_, Frame.push_of_room (by omega) v, congrArg Nat.succ h⟩
  · obtain ⟨hroom, rfl⟩ := Frame.push_ok hpush
    exact hroom
  · obtain ⟨rest, hstack, rfl⟩ := Frame.pop_ok hpop
    rw [Frame.depth, hstack] at h
    exact Nat.le_of_succ_le h

/-! ### An instruction with a body, on the current frame -/

section Body
variable {i : Instr} {s : State} {k : Nat} {f : Frame} {body : Frame → Except FaultCategory Frame}

theorem exec_of_body_ok (hb : instrBody s.config.memMax i = some body) (hc : s.Current k f) {g : Frame}
    (h : body f = .ok g) : exec i s = .next { s with chain := s.chain.set k g } := by
  rw [exec_of_current hb hc, h]

theorem exec_of_body_error (hb : instrBody s.config.memMax i = some body) (hc : s.Current k f) {c : FaultCategory}
    (h : body f = .error c) : exec i s = .next (s.raise c) := by
  rw [exec_of_current hb hc, h]

end Body

/-! ### POP (R155) -/

theorem Frame.drop_of_cons {f : Frame} {v : Word} {rest : List Word} (h : f.stack = v :: rest) :
    f.drop = .ok { f with stack := rest } := by
  rw [Frame.drop_eq, h]

theorem Frame.drop_of_nil {f : Frame} (h : f.stack = []) : f.drop = .error .stackUnderflow := by
  rw [Frame.drop_eq, h]

/-- Settles O22: the body of POP is `Frame.drop`. -/
theorem popInstruction : Obligations.PopInstruction :=
  ⟨rfl, fun _ _ _ hc => ⟨fun _ _ h => exec_of_body_ok rfl hc (Frame.drop_of_cons h),
    fun h => exec_of_body_error rfl hc (Frame.drop_of_nil h)⟩⟩

/-! ### DUP1 to DUP16 (R156) -/

section Dup
variable {f : Frame} {n : Nat}

theorem Frame.dup_of_room (hn : 1 ≤ n) {v : Word} (h : f.stack[n - 1]? = some v) (hroom : f.depth < 1024) :
    f.dup n = .ok { f with stack := v :: f.stack } := by
  rw [Frame.dup_eq hn, h]
  exact if_neg (Nat.not_le_of_lt hroom)

theorem Frame.dup_of_underflow (h : f.depth < n) : f.dup n = .error .stackUnderflow := by
  rw [Frame.dup, Frame.require, if_neg (Nat.not_le_of_lt h)]
  rfl

/-- The check of the entries passes on a full stack, which holds more than any DUP needs (R156). -/
theorem Frame.dup_of_full (hn : 1 ≤ n) (hle : n ≤ 1024) (h : f.depth = 1024) : f.dup n = .error .stackOverflow := by
  have hlt : n - 1 < f.stack.length := by
    rw [Frame.depth] at h
    omega
  rw [Frame.dup_eq hn, List.getElem?_eq_getElem hlt]
  exact if_pos h.ge

theorem dupFamily_instrBody {i : Instr} (h : (n, i) ∈ dupFamily) (memMax : Nat) :
    instrBody memMax i = some (Frame.dup n) := by
  fin_cases h <;> rfl

theorem dupFamily_encode {i : Instr} (h : (n, i) ∈ dupFamily) : encode i = [BitVec.ofNat 8 (0x7F + n)] :=
  (oneByteRows_encode _ (mem_oneByteRows.mpr (.inr (.inl ⟨n, h, rfl⟩)))).1

end Dup

/-- Settles O23: the body of DUP`N` is `Frame.dup N`, and `N` is 1 to 16. -/
theorem dupInstructions : Obligations.DupInstructions := by
  rintro ⟨n, i⟩ hp
  obtain ⟨hn, hle⟩ : 1 ≤ n ∧ n ≤ 16 := numbered_bounds (dupFamily_eq ▸ hp)
  refine ⟨dupFamily_encode hp, fun s k f hc => ?_⟩
  have hb := dupFamily_instrBody hp s.config.memMax
  exact ⟨fun v h hroom => exec_of_body_ok hb hc (Frame.dup_of_room hn h hroom),
    fun h => exec_of_body_error hb hc (Frame.dup_of_underflow h),
    fun h => exec_of_body_error hb hc (Frame.dup_of_full hn (by omega) h)⟩

/-! ### SWAP1 to SWAP16 (R157) -/

/-- The stack with its top and the entry `n` positions below it exchanged. -/
def exchanged (stack : List Word) (n : Nat) (h : n < stack.length) : List Word :=
  (stack.set 0 stack[n]).set n (stack[0]'(Nat.zero_lt_of_lt h))

section Exchanged
variable {stack : List Word} {n : Nat} (h : n < stack.length)

theorem exchanged_length : (exchanged stack n h).length = stack.length := by simp [exchanged]

theorem exchanged_at : (exchanged stack n h)[n]? = stack[0]? := by
  rw [exchanged, List.getElem?_set_self (by simpa using h), List.getElem?_eq_getElem]

theorem exchanged_top : (exchanged stack n h)[0]? = stack[n]? := by
  cases n with
  | zero => exact exchanged_at h
  | succ n =>
    rw [exchanged, List.getElem?_set_ne (Nat.succ_ne_zero n), List.getElem?_set_self (Nat.zero_lt_of_lt h),
      List.getElem?_eq_getElem h]

theorem exchanged_elsewhere {k : Nat} (h0 : k ≠ 0) (hn : k ≠ n) : (exchanged stack n h)[k]? = stack[k]? := by
  rw [exchanged, List.getElem?_set_ne hn.symm, List.getElem?_set_ne h0.symm]

theorem exchanged_of_eq (heq : stack[0]? = stack[n]?) : exchanged stack n h = stack := by
  apply List.ext_getElem?
  intro k
  by_cases h0 : k = 0
  · rw [h0, exchanged_top, heq]
  · by_cases hn : k = n
    · rw [hn, exchanged_at, heq]
    · exact exchanged_elsewhere h h0 hn

end Exchanged

section Swap
variable {f : Frame} {n : Nat}

theorem Frame.swap_of_lt (h : n < f.stack.length) : f.swap n = .ok { f with stack := exchanged f.stack n h } := by
  rw [Frame.swap_eq, List.getElem?_eq_getElem h, List.getElem?_eq_getElem (Nat.zero_lt_of_lt h)]
  rfl

theorem Frame.swap_of_underflow (h : f.depth ≤ n) : f.swap n = .error .stackUnderflow := by
  rw [Frame.swap, Frame.require, if_neg (Nat.not_le_of_lt (Nat.lt_succ_of_le h))]
  rfl

theorem swapFamily_instrBody {i : Instr} (h : (n, i) ∈ swapFamily) (memMax : Nat) :
    instrBody memMax i = some (Frame.swap n) := by
  fin_cases h <;> rfl

theorem swapFamily_encode {i : Instr} (h : (n, i) ∈ swapFamily) : encode i = [BitVec.ofNat 8 (0x8F + n)] :=
  (oneByteRows_encode _ (mem_oneByteRows.mpr (.inr (.inr ⟨n, h, rfl⟩)))).1

end Swap

/-- Settles O24: the body of SWAP`N` is `Frame.swap N`, and the stack it leaves is `exchanged`. -/
theorem swapInstructions : Obligations.SwapInstructions := by
  rintro ⟨n, i⟩ hp
  refine ⟨swapFamily_encode hp, fun s k f hc => ?_⟩
  have hb := swapFamily_instrBody hp s.config.memMax
  refine ⟨fun h => ?_, fun h => exec_of_body_error hb hc (Frame.swap_of_underflow h)⟩
  exact ⟨exchanged f.stack n h, exec_of_body_ok hb hc (Frame.swap_of_lt h), exchanged_length h, exchanged_top h,
    exchanged_at h, fun _ => exchanged_elsewhere h, exchanged_of_eq h⟩

end Sys2Proof.Machine
end

section
/-! PROOFS. PUSH1 to PUSH32 (42_push R200 to R233): what the body answers, in the order of its two checks; what the loop
fetches at the opcode byte of PUSH`N`; and the step, which is that body on the frame after fetch. -/

namespace Sys2Proof.Machine

/-! ### The body (R200, 60_exceptions R308(a)) -/

section PushBody
variable {f : Frame} {n : Nat}

theorem Frame.pushImm_of_truncated (h : f.codeEnd - f.pc < n) (imm : Word) :
    f.pushImm n imm = .error .truncatedImmediate := by
  rw [Frame.pushImm_eq, if_pos h]

theorem Frame.pushImm_of_room (hn : n ≤ f.codeEnd - f.pc) (hroom : f.depth < 1024) (imm : Word) :
    f.pushImm n imm = .ok { f with stack := imm :: f.stack, pc := f.pc + n } := by
  rw [Frame.pushImm_eq, if_neg (Nat.not_lt_of_le hn)]
  exact if_neg (Nat.not_le_of_lt hroom)

theorem Frame.pushImm_of_full (hn : n ≤ f.codeEnd - f.pc) (hfull : f.depth = 1024) (imm : Word) :
    f.pushImm n imm = .error .stackOverflow := by
  rw [Frame.pushImm_eq, if_neg (Nat.not_lt_of_le hn)]
  exact if_pos hfull.ge

theorem pushFamily_instrBody {mk : Word → Instr} (h : (n, mk) ∈ pushFamily) (imm : Word) (memMax : Nat) :
    instrBody memMax (mk imm) = some (Frame.pushImm n imm) := by
  fin_cases h <;> rfl

end PushBody

/-- Settles O25: the body of PUSH`N` is `Frame.pushImm N`. -/
theorem pushInstructions : Obligations.PushInstructions := by
  rintro ⟨n, mk⟩ hp imm s k f hc
  have hb := pushFamily_instrBody hp imm s.config.memMax
  exact ⟨fun hn hroom => exec_of_body_ok hb hc (Frame.pushImm_of_room hn hroom imm),
    fun h => exec_of_body_error hb hc (Frame.pushImm_of_truncated h imm),
    fun hn hfull => exec_of_body_error hb hc (Frame.pushImm_of_full hn hfull imm)⟩

/-! ### A pass of the loop, by what it fetches (44_control_and_loop R250) -/

section Pass
variable {s : State} {k : Nat} {f g : Frame} {i : Instr} {body : Frame → Except FaultCategory Frame}

theorem step_of_fetch_instr (hr : s.run = .running) (hc : s.Current k f) (hpc : f.pc ≠ f.codeEnd) {rest : List Byte}
    (h : f.fetch = .instr i rest) : step s = exec i (s.setFrame f.afterFetch) := by
  rw [step_running hr (State.frame?_of_current hc), loopPass, if_neg hpc, h]

theorem step_of_fetch_truncated (hr : s.run = .running) (hc : s.Current k f) (hpc : f.pc ≠ f.codeEnd) {n : Nat}
    (h : f.fetch = .truncated n) : step s = .next (s.raise .truncatedImmediate) := by
  rw [step_running hr (State.frame?_of_current hc), loopPass, if_neg hpc, h]
  exact congrArg _ (State.raise_setFrame s _ _)

theorem exec_setFrame_of_body_ok (hb : instrBody s.config.memMax i = some body) (hc : s.Current k f) {g' : Frame}
    (h : body g = .ok g') : exec i (s.setFrame g) = .next { s with chain := s.chain.set k g' } := by
  rw [← State.setFrame_config s g] at hb
  rw [exec_of_body_ok hb (State.setFrame_current hc g) h, State.setFrame_of_current hc]
  simp only [List.set_set]

theorem exec_setFrame_of_body_error (hb : instrBody s.config.memMax i = some body) (hc : s.Current k f)
    {c : FaultCategory} (h : body g = .error c) : exec i (s.setFrame g) = .next (s.raise c) := by
  rw [← State.setFrame_config s g] at hb
  rw [exec_of_body_error hb (State.setFrame_current hc g) h, State.raise_setFrame]

end Pass

/-! ### The step (R200) -/

section Fetch
variable {f : Frame} {n : Nat} {mk : Word → Instr}

theorem Frame.pc_lt_codeEnd {op : Byte} (hend : f.codeEnd = f.code.length) (hop : f.code[f.pc]? = some op) :
    f.pc < f.codeEnd := hend ▸ (List.getElem?_eq_some_iff.mp hop).1

/-- At the opcode byte of PUSH`N` the decoder answers by the number of code bytes behind it (30_encoding R95, R106). -/
theorem Frame.fetch_pushFamily (hp : (n, mk) ∈ pushFamily) (hend : f.codeEnd = f.code.length)
    (hop : f.code[f.pc]? = some (BitVec.ofNat 8 (0x5F + n))) :
    f.fetch = if f.codeEnd - (f.pc + 1) < n then .truncated n
      else .instr (mk (beWord ((f.code.drop (f.pc + 1)).take n))) ((f.code.drop (f.pc + 1)).drop n) := by
  rw [Frame.fetch, Frame.codeAhead_eq_cons (Frame.pc_lt_codeEnd hend hop) hop, hend, List.take_length,
    decode_pushFamily hp, List.length_drop]

end Fetch

/-- Settles O26: with `N` bytes left the step is `Frame.pushImm N` on the frame after fetch, and with fewer the loop itself
takes the fault, before any push. -/
theorem pushStep : Obligations.PushStep := by
  rintro ⟨n, mk⟩ hp s k f hr hc hend hop
  have hpc := (Frame.pc_lt_codeEnd hend hop).ne
  have hfetch := Frame.fetch_pushFamily hp hend hop
  have hb := pushFamily_instrBody hp (beWord ((f.code.drop (f.pc + 1)).take n)) s.config.memMax
  have hstep (hn : n ≤ f.codeEnd - (f.pc + 1)) :
      step s = exec (mk (beWord ((f.code.drop (f.pc + 1)).take n))) (s.setFrame f.afterFetch) :=
    step_of_fetch_instr hr hc hpc (hfetch.trans (if_neg (Nat.not_lt_of_le hn)))
  refine ⟨fun hn hroom => ?_, fun h => step_of_fetch_truncated hr hc hpc (hfetch.trans (if_pos h)), fun hn hfull => ?_⟩
  · rw [hstep hn]
    exact exec_setFrame_of_body_ok hb hc (Frame.pushImm_of_room (f := f.afterFetch) hn hroom _)
  · rw [hstep hn]
    exact exec_setFrame_of_body_error hb hc (Frame.pushImm_of_full (f := f.afterFetch) hn hfull _)

end Sys2Proof.Machine
end

section
/-! PROOFS. MSTORE (43_mstore R240, R242): the memory it leaves, read at every address, and what its body answers. -/

namespace Sys2Proof.Machine

/-! ### The memory it leaves (20_memory R62, R66, R68) -/

/-- The memory grown to hold the 32 bytes from `o` on, with `v` stored there. -/
def Memory.grownStore (m : Memory) (o : Nat) (v : Word) : Memory :=
  Memory.write { m with len := max m.len (o + 32) } o (be32 v)

section GrownStore
variable {m : Memory} {o a k : Nat} {v : Word}

theorem Memory.grownStore_len : (m.grownStore o v).len = max m.len (o + 32) := Memory.write_len _ o _

/-- Growth leaves the cells alone, so only the store is read through. -/
theorem Memory.read_grownStore (h : m.wf) (o : Nat) (v : Word) (a : Nat) :
    (m.grownStore o v).read a = if o ≤ a ∧ a < o + 32 then byteOf v (31 - (a - o)) else m.read a :=
  Memory.read_write_be32 (m := { m with len := max m.len (o + 32) }) h.1 o v a

theorem Memory.read_grownStore_add (h : m.wf) (hk : k < 32) : (m.grownStore o v).read (o + k) = byteOf v (31 - k) := by
  rw [Memory.read_grownStore h, if_pos (by omega), Nat.add_sub_cancel_left]

/-- Growth exposes zeros, since a canonical memory reads as zero beyond its length (R242). -/
theorem Memory.read_eq_ite_of_wf (h : m.wf) (a : Nat) : m.read a = if a < m.len then m.read a else 0#8 := by
  split
  · rfl
  · next ha => exact Memory.read_of_len_le h (Nat.le_of_not_lt ha)

theorem Memory.read_grownStore_of_outside (h : m.wf) (ha : a < o ∨ o + 32 ≤ a) :
    (m.grownStore o v).read a = if a < m.len then m.read a else 0#8 := by
  rw [Memory.read_grownStore h, if_neg (by omega)]
  exact Memory.read_eq_ite_of_wf h a

end GrownStore

/-! ### The body (R240, 60_exceptions R310) -/

section MstoreBody
variable {memMax : Nat} {f : Frame} {offset value : Word} {rest : List Word}

theorem Frame.mstore_of_fits (hs : f.stack = offset :: value :: rest) (h : low64 offset + 32 ≤ memMax) :
    f.mstore memMax = .ok { f with stack := rest, mem := f.mem.grownStore (low64 offset) value } := by
  rw [Frame.mstore_eq, hs]
  exact if_neg (Nat.not_lt_of_le h)

theorem Frame.mstore_of_limit (hs : f.stack = offset :: value :: rest) (h : memMax < low64 offset + 32) :
    f.mstore memMax = .error .memoryLimit := by
  rw [Frame.mstore_eq, hs]
  exact if_pos h

theorem Frame.mstore_of_underflow (h : f.depth < 2) : f.mstore memMax = .error .stackUnderflow := by
  rw [Frame.mstore, Frame.require, if_neg (Nat.not_le_of_lt h)]
  rfl

end MstoreBody

/-- Settles O31: the body of MSTORE is `Frame.mstore`, and the memory it leaves is `Memory.grownStore`. -/
theorem mstoreInstruction : Obligations.MstoreInstruction := by
  refine ⟨rfl, fun s i f hc => ⟨fun offset value rest hs hwf hfit => ?_, fun _ _ _ hs hlimit => ?_, fun h => ?_⟩⟩
  · exact ⟨f.mem.grownStore (low64 offset) value, exec_of_body_ok rfl hc (Frame.mstore_of_fits hs hfit),
      Memory.grownStore_len, fun _ => Memory.read_grownStore_add hwf, fun _ => Memory.read_grownStore_of_outside hwf⟩
  · exact exec_of_body_error rfl hc (Frame.mstore_of_limit hs hlimit)
  · exact exec_of_body_error rfl hc (Frame.mstore_of_underflow h)

end Sys2Proof.Machine
end

section
/-! PROOFS. The control instructions and the loop (44_control_and_loop R250 to R258, R261, R264): what a retirement leaves, what
STOP and RETURN answer, what no step changes or reads, and that every interpretation ends. -/

namespace Sys2Proof.Machine

/-! ### A pass of the loop (R250, R251) -/

/-- Settles O39: the state after fetch has the frame past the opcode byte in the place of the current one. -/
theorem stepRunsDecodedInstruction : Obligations.StepRunsDecodedInstruction := by
  intro s k f i rest hr hc hpc hfetch
  rw [step_of_fetch_instr hr hc hpc hfetch, State.setFrame_of_current hc, Frame.afterFetch]

/-! ### The retirement: STOP and the end of the code (R252 to R255) -/

section Retire
variable {s : State} {k : Nat} {f : Frame}

theorem exec_stop_of_current (hc : s.Current k f) : exec .stop s = .next (s.retire f) := by
  rw [exec, execStop, State.frame?_of_current hc]

theorem step_of_end_of_code (hr : s.run = .running) (hc : s.Current k f) (hpc : f.pc = f.codeEnd) :
    step s = .next (s.retire f) := by
  rw [step_running hr (State.frame?_of_current hc), loopPass, if_pos hpc]

/-- The caller of the current frame is the frame before it on the chain (10_state R23). -/
theorem State.caller_of_current (hi : s.Inv) (hc : s.Current k f) : f.caller = lastRef k := by
  obtain ⟨-, -, -, hlink, -⟩ := hi
  exact linked_iff.mp hlink k f hc.2

end Retire

/-- Settles O34: STOP answers the retirement of the current frame. -/
theorem stopInstruction : Obligations.StopInstruction := by
  refine ⟨rfl, fun s i f hc => ?_⟩
  rw [exec_stop_of_current hc, State.retire_of_current hc]

/-- Settles O35: the end of the code and STOP both answer the retirement of the current frame. -/
theorem endOfCodeRetires : Obligations.EndOfCodeRetires := by
  intro s i f hr hc hpc
  rw [step_of_end_of_code hr hc hpc, exec_stop_of_current hc, State.retire_of_current hc, hr]
  exact ⟨rfl, rfl⟩

/-- Settles O36: the frame that retires is the last of the chain, and its caller the one before it. -/
theorem retirementResumesCaller : Obligations.RetirementResumesCaller := by
  intro s t i f hi hr hc h
  rw [exec_stop_of_current hc, State.retire_of_current hc, State.caller_of_current hi hc] at h
  cases h
  have hlen := State.length_of_current hi hc
  have herase := State.length_erase_current hi hc
  obtain ⟨-, -, -, -, -, -, -, -, hfault⟩ := hi
  refine ⟨?_, rfl, hfault hr, fun hpos => ?_, fun hzero => ?_⟩
  · rw [State.nframes, State.nframes, herase, hlen]
  · obtain ⟨j, rfl⟩ := Nat.exists_eq_add_of_lt hpos
    refine ⟨hr, rfl, ?_⟩
    simp [State.frame?, lastRef, List.getElem?_eraseIdx_of_lt]
  · subst hzero
    exact ⟨rfl, rfl, List.length_eq_zero_iff.mp herase⟩

/-! ### RETURN (R256, R258) -/

section ReturnData
variable {memMax : Nat} {f : Frame} {offset size : Word} {rest : List Word}

theorem Frame.returnData_of_fits (hs : f.stack = offset :: size :: rest) (h : low64 offset + low64 size ≤ memMax) :
    f.returnData memMax = .ok (f.mem.slice (low64 offset) (low64 size)) := by
  rw [Frame.returnData_eq, hs]
  exact if_neg (Nat.not_lt_of_le h)

theorem Frame.returnData_of_limit (hs : f.stack = offset :: size :: rest) (h : memMax < low64 offset + low64 size) :
    f.returnData memMax = .error .memoryLimit := by
  rw [Frame.returnData_eq, hs]
  exact if_pos h

theorem Frame.returnData_of_underflow (h : f.depth < 2) : f.returnData memMax = .error .stackUnderflow := by
  rw [Frame.returnData, Frame.require, if_neg (Nat.not_le_of_lt h)]
  rfl

end ReturnData

section ExecReturn
variable {s : State} {f : Frame}

theorem execReturn_of_data (hf : s.frame? = some f) {d : Memory} (h : f.returnData s.config.memMax = .ok d) :
    execReturn s = .next (State.retire { s with retdata := d } f) := by
  simp only [execReturn, hf, h]

theorem execReturn_of_fault (hf : s.frame? = some f) {c : FaultCategory} (h : f.returnData s.config.memMax = .error c) :
    execReturn s = .next (s.raise c) := by
  simp only [execReturn, hf, h]

end ExecReturn

/-- Settles O33: the return data is a slice of the memory, which reads as zero beyond its length. -/
theorem returnInstruction : Obligations.ReturnInstruction := by
  refine ⟨rfl, fun s i f hc => ?_⟩
  have hf := State.frame?_of_current hc
  refine ⟨fun offset size rest hs hwf hfit => ?_, fun offset size rest hs hlimit => ?_, fun h => ?_⟩
  · refine ⟨f.mem.slice (low64 offset) (low64 size), ?_, Memory.slice_len _ _ _, fun k hk => ?_⟩
    · rw [exec, execReturn_of_data hf (Frame.returnData_of_fits hs hfit)]
      exact congrArg _ (State.retire_of_current (i := i) hc)
    · exact (Memory.read_slice f.mem _ hk).trans (Memory.read_eq_ite_of_wf hwf _)
  · exact execReturn_of_fault hf (Frame.returnData_of_limit hs hlimit)
  · exact execReturn_of_fault hf (Frame.returnData_of_underflow h)

/-! ### What no step changes (R264) -/

section Unchanged
variable {s t : State}

/-- The handles and the parameters stay. -/
theorem step_keeps_handles_config (hi : s.Inv) (h : step s = .next t) :
    t.moduleHandle = s.moduleHandle ∧ t.stackMgr = s.stackMgr ∧ t.config = s.config := by
  cases hr : s.run with
  | halted =>
    rw [step_halted hr] at h
    cases h; exact ⟨rfl, rfl, rfl⟩
  | running =>
    obtain ⟨k, f, hc⟩ := State.exists_current_of_running hi hr
    rcases step_cases hr hc h with ⟨-, c, rfl⟩ | ⟨d, -, rfl⟩ | ⟨-, i, rest, g, -, -, rfl⟩ <;> exact ⟨rfl, rfl, rfl⟩

/-- A frame on the chain after a step that was not the current one before it is as it was. -/
theorem step_keeps_other_frames (hi : s.Inv) (h : step s = .next t) {j : Nat} {g : Frame} (hj : s.cur ≠ some j)
    (hg : t.chain[j]? = some g) : s.chain[j]? = some g := by
  cases hr : s.run with
  | halted =>
    rw [step_halted hr] at h
    cases h; exact hg
  | running =>
    obtain ⟨k, f, hc⟩ := State.exists_current_of_running hi hr
    have hkj : k ≠ j := fun heq => hj (heq ▸ hc.1)
    rcases step_cases hr hc h with ⟨-, c, rfl⟩ | ⟨d, -, rfl⟩ | ⟨-, i, rest, g', -, -, rfl⟩
    · cases hg
    · have hlt : j < k := State.length_erase_current hi hc ▸ (List.getElem?_eq_some_iff.mp hg).1
      rwa [← List.getElem?_eraseIdx_of_lt hlt]
    · rwa [← List.getElem?_set_ne hkj]

end Unchanged

/-! ### What no step reads (R264) -/

/-- The return data and the fault register replaced. -/
def State.withStatus (d : Memory) (c : Option FaultCategory) (s : State) : State := { s with retdata := d, fault := c }

section WithStatus
variable (d d' : Memory) (c c' : Option FaultCategory) (s : State) (f : Frame)

@[simp] theorem State.withStatus_run : (s.withStatus d c).run = s.run := rfl
@[simp] theorem State.withStatus_config : (s.withStatus d c).config = s.config := rfl
@[simp] theorem State.withStatus_withStatus : (s.withStatus d' c').withStatus d c = s.withStatus d c := rfl
@[simp] theorem State.frame?_withStatus : (s.withStatus d c).frame? = s.frame? := rfl

@[simp] theorem State.setFrame_withStatus : (s.withStatus d c).setFrame f = (s.setFrame f).withStatus d c := by
  cases h : s.cur <;> simp [State.setFrame, State.withStatus, h]

@[simp] theorem State.raise_withStatus (e : FaultCategory) :
    (s.withStatus d' c').raise e = (s.raise e).withStatus d' (some e) := rfl

@[simp] theorem State.release_withStatus : (s.withStatus d c).release f = (s.release f).withStatus d c := by
  cases h : s.cur <;> simp [State.release, State.withStatus, h]

@[simp] theorem State.retire_withStatus : (s.withStatus d c).retire f = (s.retire f).withStatus d c := by
  unfold State.retire
  rw [State.release_withStatus]
  split <;> rfl

/-- The outcome with the return data and the fault register of its next state replaced. -/
def withStatusResult : Result → Result
  | .next t => .next (t.withStatus d c)
  | .fault r => .fault r
  | .refused r => .refused r

@[simp] theorem withStatusResult_next (t : State) : withStatusResult d c (.next t) = .next (t.withStatus d c) := rfl

theorem onFrame_withStatus (body : Frame → Except FaultCategory Frame) :
    withStatusResult d c (onFrame body (s.withStatus d' c')) = withStatusResult d c (onFrame body s) := by
  cases hf : s.frame? with
  | none => simp [onFrame, hf]
  | some f => cases hb : body f <;> simp [onFrame, hf, hb]

theorem execStop_withStatus :
    withStatusResult d c (execStop (s.withStatus d' c')) = withStatusResult d c (execStop s) := by
  cases hf : s.frame? <;> simp [execStop, hf]

theorem execReturn_withStatus :
    withStatusResult d c (execReturn (s.withStatus d' c')) = withStatusResult d c (execReturn s) := by
  cases hf : s.frame? with
  | none => simp [execReturn, hf]
  | some f =>
    cases hd : f.returnData s.config.memMax with
    | error e => simp [execReturn, hf, hd]
    | ok data =>
      have hretire (e : Option FaultCategory) : State.withStatus d c (State.retire (s.withStatus data e) f) =
          (s.retire f).withStatus d c := by rw [State.retire_withStatus, State.withStatus_withStatus]
      rw [execReturn_of_data hf hd, execReturn_of_data (s := s.withStatus d' c') hf hd]
      exact congrArg Host.Outcome.next ((hretire c').trans (hretire s.fault).symm)

theorem exec_withStatus (i : Instr) :
    withStatusResult d c (exec i (s.withStatus d' c')) = withStatusResult d c (exec i s) := by
  cases hb : instrBody s.config.memMax i with
  | some body =>
    rw [exec_eq_onFrame hb, exec_eq_onFrame (s := s.withStatus d' c') hb]
    exact onFrame_withStatus d d' c c' s body
  | none =>
    rcases instrBody_eq_none hb with rfl | rfl
    · exact execStop_withStatus d d' c c' s
    · exact execReturn_withStatus d d' c c' s

theorem loopPass_withStatus :
    withStatusResult d c (loopPass (s.withStatus d' c') f) = withStatusResult d c (loopPass s f) := by
  unfold loopPass
  by_cases hpc : f.pc = f.codeEnd
  · simp [hpc]
  · cases hf : f.fetch <;> simp [hpc, exec_withStatus]

/-- Up to what it leaves in the return data and the fault register, a step does the same whatever they held before. -/
theorem step_withStatus : withStatusResult d c (step (s.withStatus d' c')) = withStatusResult d c (step s) := by
  cases hr : s.run with
  | halted => rw [step_halted hr, step_halted (s := s.withStatus d' c') hr]; rfl
  | running =>
    cases hf : s.frame? with
    | none => simp [step, loopStep, hr, hf]
    | some f =>
      rw [step_running hr hf, step_running (s := s.withStatus d' c') hr hf]
      exact loopPass_withStatus d d' c c' s f

theorem withStatusResult_eq_next {o : Result} {t : State} (h : withStatusResult d c o = .next t) :
    ∃ t', o = .next t' ∧ t'.withStatus d c = t := by
  cases o with
  | next t' => exact ⟨t', rfl, Host.Outcome.next.inj h⟩
  | fault r => cases h
  | refused r => cases h

end WithStatus

/-- Settles O44: the constants of a frame are those of O46, and a step commutes with the replacement of the two registers it
does not read. -/
theorem whatStepsNeverDo : Obligations.WhatStepsNeverDo := by
  refine ⟨fun s t hi h => ?_, fun s t d c h => ?_⟩
  · obtain ⟨hmodule, hmgr, hconfig⟩ := step_keeps_handles_config hi h
    refine ⟨hmodule, hmgr, hconfig, fun k g hg => ?_⟩
    obtain ⟨f, hf, -, -, -, -, hend, hcode, hcaller, hgas⟩ := frameInvariants s t hi h k g hg
    refine ⟨f, hf, hcode, hend, hcaller, hgas, fun hk => ?_⟩
    exact Option.some.inj ((step_keeps_other_frames hi h hk hg).symm.trans hf)
  · have hstep := step_withStatus t.retdata d t.fault c s
    rw [h] at hstep
    exact withStatusResult_eq_next _ _ hstep

/-! ### A step always answers under the invariant -/

theorem decode_cons_ne_endOfBytes (op : Byte) (rest : List Byte) : decode (op :: rest) ≠ .endOfBytes := by
  rcases opcode_cases op with ⟨i, hi⟩ | ⟨n, mk, hmk, rfl⟩ | hu
  · simp [decode_oneByte hi]
  · rw [decode_pushFamily hmk]
    split <;> simp
  · simp [decode_unsupported hu]

/-- Short of the end of the code there is an opcode byte to fetch. -/
theorem Frame.fetch_ne_endOfBytes {f : Frame} (hend : f.codeEnd = f.code.length) (hpc : f.pc < f.codeEnd) :
    f.fetch ≠ .endOfBytes := by
  rw [Frame.fetch, Frame.codeAhead_eq_cons hpc (List.getElem?_eq_getElem (hend ▸ hpc))]
  exact decode_cons_ne_endOfBytes _ _

theorem step_answers_next {s : State} (hi : s.Inv) : ∃ t, step s = .next t := by
  cases hr : s.run with
  | halted => exact ⟨s, step_halted hr⟩
  | running =>
    obtain ⟨k, f, hc⟩ := State.exists_current_of_running hi hr
    have hf := State.frame?_of_current hc
    obtain ⟨-, hle, hend, -⟩ := State.frameInv_of_current hi hc
    rw [step_running hr hf, loopPass]
    split_ifs with hpc
    · exact ⟨_, rfl⟩
    · have hne := Frame.fetch_ne_endOfBytes hend (Nat.lt_of_le_of_ne hle hpc)
      cases hfetch : f.fetch with
      | instr i rest => exact exec_answers_next (State.frame?_setFrame hf f.afterFetch) i
      | truncated n => exact ⟨_, rfl⟩
      | unsupported op => exact ⟨_, rfl⟩
      | endOfBytes => exact absurd hfetch hne

/-! ### Every interpretation ends (R261) -/

/-- The greatest number of steps a frame can still be current for: one a code byte left, and one for its retirement. -/
def Frame.stepsLeft (f : Frame) : Nat := f.codeEnd - f.pc + 1

/-- The greatest number of steps to the end of the interpretation. -/
def State.stepsLeft (s : State) : Nat := (s.chain.map Frame.stepsLeft).sum

theorem State.stepsLeft_le_stepBound (s : State) : s.stepsLeft ≤ s.stepBound :=
  List.sum_le_sum fun f _ => Nat.add_le_add_right (Nat.sub_le f.codeEnd f.pc) 1

section StepsLeft
variable {s t : State} {k : Nat} {f g : Frame}

theorem State.stepsLeft_of_current (hc : s.Current k f) :
    s.stepsLeft = f.stepsLeft + ((s.chain.eraseIdx k).map Frame.stepsLeft).sum := by
  obtain ⟨hk, rfl⟩ := List.getElem?_eq_some_iff.mp hc.2
  rw [State.stepsLeft, ← List.sum_cons, ← List.map_cons]
  exact ((List.getElem_cons_eraseIdx_perm hk).map _).sum_eq.symm

theorem BodyEffect.stepsLeft_lt {memMax : Nat} {i : Instr} (h : BodyEffect memMax i f.afterFetch g)
    (hpc : f.pc < f.codeEnd) : g.stepsLeft < f.stepsLeft := by
  have hg : g.pc = f.pc + 1 + immediateBytes i := h.pc
  have hend : g.codeEnd = f.codeEnd := h.codeEnd
  rw [Frame.stepsLeft, Frame.stepsLeft]
  omega

/-- A fault empties the chain, a retirement takes the current frame's share away, and a body makes it smaller. -/
theorem step_decreases_stepsLeft (hi : s.Inv) (hr : s.run = .running) (h : step s = .next t) :
    t.stepsLeft < s.stepsLeft := by
  obtain ⟨k, f, hc⟩ := State.exists_current_of_running hi hr
  obtain ⟨-, hle, -⟩ := State.frameInv_of_current hi hc
  have hpos : 0 < f.stepsLeft := Nat.succ_pos _
  rw [State.stepsLeft_of_current hc]
  rcases step_cases hr hc h with ⟨-, c, rfl⟩ | ⟨d, -, rfl⟩ | ⟨hpc, i, rest, g, -, hg, rfl⟩
  · exact Nat.add_pos_left hpos _
  · exact Nat.lt_add_of_pos_left hpos
  · rw [← State.setFrame_of_current hc, State.stepsLeft_of_current (State.setFrame_current hc g),
      State.setFrame_of_current hc, List.eraseIdx_set_eq]
    exact Nat.add_lt_add_right (hg.stepsLeft_lt (Nat.lt_of_le_of_ne hle hpc)) _

/-! #### The runs of the machine, step by step -/

theorem run_succ_of_step (h : step s = .next t) (n : Nat) :
    Host.Core.run Sys2Proof.core (n + 1) s = Host.Core.run Sys2Proof.core n t := by
  have hcore : Sys2Proof.core.step s = .next t := h
  simp only [Host.Core.run, hcore]

theorem run_of_halted (hr : s.run = .halted) (n : Nat) : Host.Core.run Sys2Proof.core n s = .next s := by
  induction n with
  | zero => rfl
  | succ n ih => rw [run_succ_of_step (step_halted hr), ih]

theorem run_ends {n : Nat} (hi : s.Inv) (hn : s.stepsLeft ≤ n) :
    ∃ t, Host.Core.run Sys2Proof.core n s = .next t ∧ t.run = .halted := by
  induction n generalizing s with
  | zero =>
    cases hr : s.run with
    | halted => exact ⟨s, rfl, hr⟩
    | running =>
      obtain ⟨t, ht⟩ := step_answers_next hi
      have := step_decreases_stepsLeft hi hr ht
      omega
  | succ n ih =>
    cases hr : s.run with
    | halted => exact ⟨s, run_of_halted hr _, hr⟩
    | running =>
      obtain ⟨t, ht⟩ := step_answers_next hi
      have := step_decreases_stepsLeft hi hr ht
      rw [run_succ_of_step ht]
      exact ih (step_inv hi ht) (by omega)

end StepsLeft

/-- Settles O49: every step of the running machine makes `stepsLeft` smaller, and it is at most the bound at the start. -/
theorem everyRunEnds : Obligations.EveryRunEnds := fun s hi _ => run_ends hi s.stepsLeft_le_stepBound

end Sys2Proof.Machine
end

section
/-! PROOFS. The operations of the host, Halted and Running (45_frame_chaining R281 to R291), and that `interpret` runs the loop
to its end (R285). -/

namespace Sys2Proof.Machine

/-! ### `interpret` runs to the end (45 R285, 44 R261, R263) -/

section Runs
variable {s t : State}

theorem runLoop_of_halted (hr : s.run = .halted) (n : Nat) : runLoop n s = .next s := by
  cases n with
  | zero => rfl
  | succ n => simp only [runLoop, hr]

theorem runLoop_succ_of_step (hr : s.run = .running) (h : step s = .next t) (n : Nat) :
    runLoop (n + 1) s = runLoop n t := by
  simp only [runLoop, hr, h]

/-- The loop of `interpret` does what the machine does: the steps it saves, once Halted, change nothing (log 14). -/
theorem runLoop_eq_run (hi : s.Inv) (n : Nat) : runLoop n s = Host.Core.run Sys2Proof.core n s := by
  induction n generalizing s with
  | zero => rfl
  | succ n ih =>
    cases hr : s.run with
    | halted => exact (runLoop_of_halted hr _).trans (run_of_halted hr _).symm
    | running =>
      obtain ⟨t, ht⟩ := step_answers_next hi
      rw [runLoop_succ_of_step hr ht, run_succ_of_step ht, ih (step_inv hi ht)]

/-- What every step from a state within the invariant keeps holds after a run. -/
theorem run_keeps {P : State → Prop} (hstep : ∀ u v : State, u.Inv → P u → step u = .next v → P v) {n : Nat}
    (hi : s.Inv) (hs : P s) (h : Host.Core.run Sys2Proof.core n s = .next t) : P t := by
  induction n generalizing s with
  | zero => cases h; exact hs
  | succ n ih =>
    obtain ⟨u, hu⟩ := step_answers_next hi
    rw [run_succ_of_step hu] at h
    exact ih (step_inv hi hu) (hstep s u hi hs hu) h

theorem run_keeps_handles {n : Nat} (hi : s.Inv) (h : Host.Core.run Sys2Proof.core n s = .next t) :
    t.moduleHandle = s.moduleHandle ∧ t.stackMgr = s.stackMgr := by
  refine run_keeps (P := fun u => u.moduleHandle = s.moduleHandle ∧ u.stackMgr = s.stackMgr) ?_ hi ⟨rfl, rfl⟩ h
  intro u v hu ⟨hmodule, hmgr⟩ huv
  obtain ⟨hmodule', hmgr', -⟩ := step_keeps_handles_config hu huv
  exact ⟨hmodule'.trans hmodule, hmgr'.trans hmgr⟩

/-- A running step that halts leaves no frame: a fault empties the chain, and a retirement halts only where the frame has no
caller, so that it is the root (44 R253, 60_exceptions R310). -/
theorem chain_eq_nil_of_step_halts (hi : s.Inv) (hr : s.run = .running) (h : step s = .next t) (ht : t.run = .halted) :
    t.chain = [] := by
  obtain ⟨k, f, hc⟩ := State.exists_current_of_running hi hr
  rcases step_cases hr hc h with ⟨-, c, rfl⟩ | ⟨d, -, rfl⟩ | ⟨-, i, rest, g, -, -, rfl⟩
  · rfl
  · have hcaller : f.caller = none := by
      by_contra hne
      simp [hne, hr] at ht
    have hk : k = 0 := lastRef_eq_none.mp ((State.caller_of_current hi hc).symm.trans hcaller)
    exact List.length_eq_zero_iff.mp ((State.length_erase_current hi hc).trans hk)
  · exact absurd (hr.symm.trans ht) (by decide)

/-- A run that starts Running and ends Halted leaves no frame (44 R263). -/
theorem chain_eq_nil_of_run_halts {n : Nat} (hi : s.Inv) (hr : s.run = .running)
    (h : Host.Core.run Sys2Proof.core n s = .next t) (ht : t.run = .halted) : t.chain = [] := by
  refine run_keeps (P := fun u => u.run = .halted → u.chain = []) ?_ hi (by simp [hr]) h ht
  intro u v hu hempty huv hv
  cases hur : u.run with
  | halted =>
    rw [step_halted hur] at huv
    cases huv; exact hempty hur
  | running => exact chain_eq_nil_of_step_halts hu hur huv hv

/-- Under the invariant there is no current frame without a chain (10_state R24). -/
theorem State.cur_eq_none_of_chain (hi : s.Inv) (h : s.chain = []) : s.cur = none := by
  obtain ⟨-, -, hcur, -⟩ := hi
  rw [hcur, State.nframes, h]
  rfl

theorem hostInterpret_of_runLoop (hr : s.run = .halted) (hcur : s.cur ≠ none)
    (h : runLoop s.stepBound s.startLoop = .next t) : hostInterpret s = .next (t, .ended t.fault) := by
  obtain ⟨k, hk⟩ := Option.ne_none_iff_exists'.mp hcur
  simp only [hostInterpret, hr, hk, h]

end Runs

/-- Settles O52: the run of the machine from the started loop ends within the bound, and the loop of `interpret` is that run. -/
theorem interpretRunsToTheEnd : Obligations.InterpretRunsToTheEnd := by
  intro s hi hr hcur
  have hstart := State.startLoop_inv hi hcur
  obtain ⟨t, hrun, ht⟩ := run_ends hstart s.startLoop.stepsLeft_le_stepBound
  have hloop : runLoop s.stepBound s.startLoop = .next t := (runLoop_eq_run hstart _).trans hrun
  have hchain := chain_eq_nil_of_run_halts hstart rfl hrun ht
  obtain ⟨hmodule, hmgr⟩ := run_keeps_handles hstart hrun
  exact ⟨t, hostInterpret_of_runLoop hr hcur hloop, ht, hchain,
    State.cur_eq_none_of_chain (runLoop_inv hstart hloop) hchain, hmodule, hmgr, hrun⟩

/-! ### The operations while Running, and Halted -/

section Operations
variable {s : State}

/-- While Running the host may only reset (45 R291). -/
theorem hostStep_running (hr : s.run = .running) {op : HostOp} (hop : op ≠ .reset) :
    hostStep op s = .next (s, .refused .notHalted) := by
  cases op with
  | reset => exact absurd rfl hop
  | setHandles m k => simp only [hostStep, hostSetHandles, hr]
  | allocateFrame code gas => simp only [hostStep, hostAllocateFrame, hr]
  | freeFrame d => simp only [hostStep, hostFreeFrame, hr]
  | interpret => simp only [hostStep, hostInterpret, hr]
  | readReturnData => simp only [hostStep, hostReadReturnData, hr]
  | readStatus => simp only [hostStep, hostReadStatus, hr]

theorem hostSetHandles_halted (hr : s.run = .halted) (m k : Handle) :
    hostSetHandles m k s = ({ s with moduleHandle := m, stackMgr := k }, .done) := by
  simp only [hostSetHandles, hr]

theorem hostReadReturnData_halted (hr : s.run = .halted) : hostReadReturnData s = (s, .returnData s.retdata) := by
  simp only [hostReadReturnData, hr]

theorem hostReadStatus_halted (hr : s.run = .halted) : hostReadStatus s = (s, .status s.run s.fault) := by
  simp only [hostReadStatus, hr]

theorem hostInterpret_noFrame (hr : s.run = .halted) (hcur : s.cur = none) :
    hostInterpret s = .next (s, .refused .noFrame) := by
  simp only [hostInterpret, hr, hcur]

end Operations

/-- Settles O53: Running is refused like every operation but reset, and Halted without a frame by a check of its own. -/
theorem interpretWithoutFrameIsRefused : Obligations.InterpretWithoutFrameIsRefused := by
  intro s h
  cases hr : s.run with
  | running => exact ⟨_, hostStep_running hr (by simp)⟩
  | halted => exact ⟨_, hostInterpret_noFrame hr (h.resolve_right (by simp [hr]))⟩

/-! ### `allocate_frame` (45 R281, R282) -/

section AllocateFrame
variable {s : State} {code : List Byte} {gas : Nat}

theorem hostAllocateFrame_accepted (hr : s.run = .halted) (hroom : s.nframes < s.config.maxFrames)
    (hcode : code.length ≤ s.config.codeMax) (hgas : gas < 2 ^ s.config.gasBits) :
    hostAllocateFrame code gas s =
      ({ s with chain := s.chain ++ [Frame.fresh code gas s.cur], cur := some s.nframes }, .frame s.nframes) := by
  simp only [hostAllocateFrame, hr]
  rw [if_neg (Nat.not_le_of_lt hroom), if_neg (Nat.not_lt_of_le hcode), if_neg (Nat.not_le_of_lt hgas)]

/-- Each of the three conditions is checked before a frame is made. -/
theorem hostAllocateFrame_refused
    (h : s.run = .running ∨ s.config.maxFrames ≤ s.nframes ∨ s.config.codeMax < code.length) :
    ∃ why, hostAllocateFrame code gas s = (s, .refused why) := by
  unfold hostAllocateFrame
  split
  · exact ⟨_, rfl⟩
  · next hr =>
    split_ifs with hfull hlong
    · exact ⟨_, rfl⟩
    · exact ⟨_, rfl⟩
    · exact ⟨_, rfl⟩
    · simp [hr, hfull, hlong] at h

end AllocateFrame

/-- Settles O50: the new frame stands at the end of the chain, at the position that is its designator. -/
theorem allocateFrameOperation : Obligations.AllocateFrameOperation := by
  refine fun s code gas hgas => ⟨fun hr hroom hcode => ?_, hostAllocateFrame_refused⟩
  exact ⟨s.nframes, Frame.fresh code gas s.cur, hostAllocateFrame_accepted hr hroom hcode hgas,
    List.getElem?_concat_length, rfl, rfl⟩

/-! ### `free_frame` (45 R283, R284) -/

section FreeFrame
variable {s : State} {d : FrameRef} {f : Frame}

theorem hostFreeFrame_of_current (hr : s.run = .halted) (hc : s.Current d f) :
    hostFreeFrame d s = ({ s with chain := s.chain.eraseIdx d, cur := f.caller }, .done) := by
  rw [← State.release_of_current hc]
  simp only [hostFreeFrame, hr, State.frame?_of_current hc, if_pos hc.1]

theorem hostFreeFrame_of_not_current (hr : s.run = .halted) (hd : s.cur ≠ some d) :
    hostFreeFrame d s = (s, .refused .notCurrent) := by
  simp only [hostFreeFrame, hr, if_neg hd]

end FreeFrame

/-- Settles O51: the release of the current frame, and the two checks before it. -/
theorem freeFrameOperation : Obligations.FreeFrameOperation := by
  refine fun s d => ⟨fun f hr hc => hostFreeFrame_of_current hr hc, fun h => ?_⟩
  cases hr : s.run with
  | running => exact ⟨_, Host.Outcome.next.inj (hostStep_running (op := .freeFrame d) hr (by simp))⟩
  | halted => exact ⟨_, hostFreeFrame_of_not_current hr (h.resolve_left (by simp [hr]))⟩

/-! ### The handles and the reads (45 R287 to R291) -/

section Refusals
variable {s t : State} {why : HostRefusal}

theorem hostAllocateFrame_state_of_refused {code : List Byte} {gas : Nat}
    (h : hostAllocateFrame code gas s = (t, .refused why)) : t = s := by
  unfold hostAllocateFrame at h
  split at h
  · cases h; rfl
  · split_ifs at h <;> cases h <;> rfl

theorem hostFreeFrame_state_of_refused {d : FrameRef} (h : hostFreeFrame d s = (t, .refused why)) : t = s := by
  unfold hostFreeFrame at h
  split at h
  · cases h; rfl
  · split_ifs at h
    · split at h <;> cases h
      rfl
    · cases h; rfl

theorem hostInterpret_state_of_refused (h : hostInterpret s = .next (t, .refused why)) : t = s := by
  unfold hostInterpret at h
  split at h
  · cases h; rfl
  · split at h
    · cases h; rfl
    · split at h <;> cases h

/-- A refused operation changes nothing (45 R291). -/
theorem hostStep_state_of_refused {op : HostOp} (h : hostStep op s = .next (t, .refused why)) : t = s := by
  cases op with
  | reset => cases h
  | setHandles m k =>
    have h := Host.Outcome.next.inj h
    unfold hostSetHandles at h
    split at h <;> cases h
    rfl
  | allocateFrame code gas => exact hostAllocateFrame_state_of_refused (Host.Outcome.next.inj h)
  | freeFrame d => exact hostFreeFrame_state_of_refused (Host.Outcome.next.inj h)
  | interpret => exact hostInterpret_state_of_refused h
  | readReturnData => exact (congrArg Prod.fst (Host.Outcome.next.inj h)).symm.trans (hostReadReturnData_state s)
  | readStatus => exact (congrArg Prod.fst (Host.Outcome.next.inj h)).symm.trans (hostReadStatus_state s)

end Refusals

/-- Settles O56, by the equations of the three operations while Halted and the two laws of refusal. -/
theorem hostReadsAndHandles : Obligations.HostReadsAndHandles := by
  refine ⟨fun s m k hr => ⟨?_, ?_, ?_⟩, fun op s hr hop => ⟨_, hostStep_running hr hop⟩,
    fun op s t why => hostStep_state_of_refused⟩
  · exact congrArg Host.Outcome.next (hostSetHandles_halted hr m k)
  · exact congrArg Host.Outcome.next (hostReadReturnData_halted hr)
  · exact congrArg Host.Outcome.next (hostReadStatus_halted hr)

end Sys2Proof.Machine
end

section
/-! PROOFS. The exceptions (60_exceptions R307, R308, R310, R335): what a step that raises a fault leaves, that each
instruction raises the fault of its row in the table, and the step of the halted machine. -/

namespace Sys2Proof.Machine

/-! ### Halted (R335) and the entry of a fault (R310) -/

/-- Settles O40, by the branch of the loop for Halted. -/
theorem haltedStepChangesNothing : Obligations.HaltedStepChangesNothing := fun _ => step_halted

/-- Settles O37: a running machine has no fault, and of the outcomes of its step only `raise` writes the register. -/
theorem faultEntry : Obligations.FaultEntry := by
  intro s t c hi hr h ht
  obtain ⟨k, f, hc⟩ := State.exists_current_of_running hi hr
  have hne : s.fault ≠ some c := by
    obtain ⟨-, -, -, -, -, -, -, -, hfault⟩ := hi
    simp [hfault hr]
  rcases step_cases hr hc h with ⟨-, c', rfl⟩ | ⟨d, -, rfl⟩ | ⟨-, i, rest, g, -, -, rfl⟩
  · cases ht
    rfl
  · exact absurd ht hne
  · exact absurd ht hne

/-! ### The fault register after an instruction -/

/-- The fault of a body or of RETURN's copy, none where it answers. -/
def faultOf {α : Type} : Except FaultCategory α → Option FaultCategory
  | .ok _ => none
  | .error c => some c

section ExecFault
variable {s : State} {k : Nat} {f : Frame}

theorem exec_fault_of_body {i : Instr} {body : Frame → Except FaultCategory Frame}
    (hb : instrBody s.config.memMax i = some body) (hc : s.Current k f) (hs : s.fault = none) :
    ∃ t, exec i s = .next t ∧ t.fault = faultOf (body f) := by
  cases h : body f with
  | ok g => exact ⟨_, exec_of_body_ok hb hc h, hs⟩
  | error c => exact ⟨_, exec_of_body_error hb hc h, rfl⟩

theorem exec_ret_fault (hc : s.Current k f) (hs : s.fault = none) :
    ∃ t, exec .ret s = .next t ∧ t.fault = faultOf (f.returnData s.config.memMax) := by
  have hf := State.frame?_of_current hc
  cases h : f.returnData s.config.memMax with
  | ok d => exact ⟨_, execReturn_of_data hf h, (State.retire_fault _ f).trans hs⟩
  | error c => exact ⟨_, execReturn_of_fault hf h, rfl⟩

end ExecFault

/-! ### The fault of each body, in the order of its checks (R308) -/

section Bodies
variable {i : Instr} {f : Frame} {n memMax : Nat}

/-- The row of an instruction that neither takes an immediate nor makes the stack deeper. -/
theorem faultRaised_of_operands_memory (himm : immediateBytes i = 0) (hdeep : deepens i = false) :
    faultRaised i f memMax =
      if f.depth < operandsNeeded i then some .stackUnderflow
      else if memMax < memoryNeeded i f.stack then some .memoryLimit else none := by
  simp [faultRaised, himm, hdeep]

/-- The row of an instruction that only needs its operands. -/
theorem faultRaised_of_operands (himm : immediateBytes i = 0) (hdeep : deepens i = false)
    (hmem : memoryNeeded i f.stack = 0) :
    faultRaised i f memMax = if f.depth < operandsNeeded i then some .stackUnderflow else none := by
  simp [faultRaised_of_operands_memory himm hdeep, hmem]

theorem Frame.exists_two_entries (h : ¬ f.depth < 2) : ∃ a b rest, f.stack = a :: b :: rest := by
  rw [Frame.depth] at h
  match hs : f.stack with
  | [] | [_] => simp [hs] at h
  | a :: b :: rest => exact ⟨a, b, rest, rfl⟩

/-- The push of the result has the room of the two entries popped. -/
theorem Frame.faultOf_binary (hd : f.depth ≤ stackMax) (op : Word → Word → Word) :
    faultOf (f.binary op) = if f.depth < 2 then some .stackUnderflow else none := by
  split
  · next h => rw [Frame.binary, Frame.require, if_neg (Nat.not_le_of_lt h)]; rfl
  · next h =>
    obtain ⟨b, a, rest, hs⟩ := Frame.exists_two_entries h
    have hroom : ¬ stackMax ≤ rest.length := by
      rw [Frame.depth, hs, List.length_cons] at hd
      exact Nat.not_le_of_lt (Nat.lt_of_succ_le (Nat.le_of_succ_le hd))
    rw [Frame.binary_eq, hs]
    simp only [if_neg hroom, faultOf]

theorem Frame.faultOf_drop : faultOf f.drop = if f.depth < 1 then some .stackUnderflow else none := by
  match hs : f.stack with
  | [] => simp [Frame.drop_of_nil hs, Frame.depth, hs, faultOf]
  | v :: rest => simp [Frame.drop_of_cons hs, Frame.depth, hs, faultOf]

theorem Frame.faultOf_swap : faultOf (f.swap n) = if f.depth < n + 1 then some .stackUnderflow else none := by
  split
  · next h => rw [Frame.swap_of_underflow (Nat.le_of_lt_succ h)]; rfl
  · next h => rw [Frame.swap_of_lt (Nat.le_of_not_lt h)]; rfl

theorem Frame.faultOf_dup (hn : 1 ≤ n) (hle : n ≤ 1024) (hd : f.depth ≤ stackMax) :
    faultOf (f.dup n) =
      if f.depth < n then some .stackUnderflow else if f.depth = stackMax then some .stackOverflow else none := by
  split_ifs with h hfull
  · rw [Frame.dup_of_underflow h]; rfl
  · rw [Frame.dup_of_full hn hle hfull]; rfl
  · have hlt : n - 1 < f.stack.length := Nat.sub_one_lt_of_le hn (Nat.le_of_not_lt h)
    rw [Frame.dup_of_room hn (List.getElem?_eq_getElem hlt) (Nat.lt_of_le_of_ne hd hfull)]; rfl

theorem Frame.faultOf_pushImm (hd : f.depth ≤ stackMax) (imm : Word) :
    faultOf (f.pushImm n imm) =
      if f.codeEnd - f.pc < n then some .truncatedImmediate
      else if f.depth = stackMax then some .stackOverflow else none := by
  split_ifs with h hfull
  · rw [Frame.pushImm_of_truncated h]; rfl
  · rw [Frame.pushImm_of_full (Nat.le_of_not_lt h) hfull]; rfl
  · rw [Frame.pushImm_of_room (Nat.le_of_not_lt h) (Nat.lt_of_le_of_ne hd hfull)]; rfl

theorem Frame.faultOf_mstore : faultOf (f.mstore memMax) = faultRaised .mstore f memMax := by
  rw [faultRaised_of_operands_memory rfl rfl]
  split_ifs with h hlimit
  · rw [Frame.mstore_of_underflow h]; rfl
  · obtain ⟨offset, value, rest, hs⟩ := Frame.exists_two_entries h
    rw [hs] at hlimit
    rw [Frame.mstore_of_limit hs hlimit]; rfl
  · obtain ⟨offset, value, rest, hs⟩ := Frame.exists_two_entries h
    rw [hs] at hlimit
    rw [Frame.mstore_of_fits hs (Nat.le_of_not_lt hlimit)]; rfl

theorem Frame.faultOf_returnData : faultOf (f.returnData memMax) = faultRaised .ret f memMax := by
  rw [faultRaised_of_operands_memory rfl rfl]
  split_ifs with h hlimit
  · rw [Frame.returnData_of_underflow h]; rfl
  · obtain ⟨offset, size, rest, hs⟩ := Frame.exists_two_entries h
    rw [hs] at hlimit
    rw [Frame.returnData_of_limit hs hlimit]; rfl
  · obtain ⟨offset, size, rest, hs⟩ := Frame.exists_two_entries h
    rw [hs] at hlimit
    rw [Frame.returnData_of_fits hs (Nat.le_of_not_lt hlimit)]; rfl

end Bodies

/-! ### The rows of the table (R307) -/

section Rows
variable {i : Instr} {f : Frame} {n memMax : Nat}

/-- The demands of the DUP family: `N` entries, and room for one more. -/
theorem dupFamily_demands (h : (n, i) ∈ dupFamily) (stack : List Word) :
    operandsNeeded i = n ∧ immediateBytes i = 0 ∧ deepens i = true ∧ memoryNeeded i stack = 0 := by
  fin_cases h <;> exact ⟨rfl, rfl, rfl, rfl⟩

/-- The demands of the SWAP family: `N + 1` entries. -/
theorem swapFamily_demands (h : (n, i) ∈ swapFamily) (stack : List Word) :
    operandsNeeded i = n + 1 ∧ immediateBytes i = 0 ∧ deepens i = false ∧ memoryNeeded i stack = 0 := by
  fin_cases h <;> exact ⟨rfl, rfl, rfl, rfl⟩

/-- The demands of the PUSH family, besides its immediate bytes: room for one more entry. -/
theorem pushFamily_demands {mk : Word → Instr} (h : (n, mk) ∈ pushFamily) (imm : Word) (stack : List Word) :
    operandsNeeded (mk imm) = 0 ∧ immediateBytes (mk imm) = n ∧ deepens (mk imm) = true ∧
      memoryNeeded (mk imm) stack = 0 := by
  fin_cases h <;> exact ⟨rfl, rfl, rfl, rfl⟩

theorem dupFamily_fault (h : (n, i) ∈ dupFamily) (hd : f.depth ≤ stackMax) :
    faultOf (f.dup n) = faultRaised i f memMax := by
  obtain ⟨hn, hle⟩ : 1 ≤ n ∧ n ≤ 16 := numbered_bounds (dupFamily_eq ▸ h)
  obtain ⟨hops, himm, hdeep, hmem⟩ := dupFamily_demands h f.stack
  rw [Frame.faultOf_dup hn (by omega) hd]
  simp [faultRaised, hops, himm, hdeep, hmem]

theorem swapFamily_fault (h : (n, i) ∈ swapFamily) : faultOf (f.swap n) = faultRaised i f memMax := by
  obtain ⟨hops, himm, hdeep, hmem⟩ := swapFamily_demands h f.stack
  rw [Frame.faultOf_swap, faultRaised_of_operands himm hdeep hmem, hops]

theorem pushFamily_fault {mk : Word → Instr} (h : (n, mk) ∈ pushFamily) (hd : f.depth ≤ stackMax) (imm : Word) :
    faultOf (f.pushImm n imm) = faultRaised (mk imm) f memMax := by
  obtain ⟨hops, himm, hdeep, hmem⟩ := pushFamily_demands h imm f.stack
  rw [Frame.faultOf_pushImm hd]
  simp [faultRaised, hops, himm, hdeep, hmem]

theorem binary_fault (hops : operandsNeeded i = 2) (himm : immediateBytes i = 0) (hdeep : deepens i = false)
    (hmem : memoryNeeded i f.stack = 0) (hd : f.depth ≤ stackMax) (op : Word → Word → Word) :
    faultOf (f.binary op) = faultRaised i f memMax := by
  rw [Frame.faultOf_binary hd, faultRaised_of_operands himm hdeep hmem, hops]

/-- The single opcodes: STOP and RETURN have no body, and the other five one each. -/
theorem single_fault {op : Byte} {body : Frame → Except FaultCategory Frame} (hrow : (op, i) ∈ singleRows)
    (hb : instrBody memMax i = some body) (hd : f.depth ≤ stackMax) : faultOf (body f) = faultRaised i f memMax := by
  fin_cases hrow <;> cases hb
  · exact binary_fault rfl rfl rfl rfl hd mauAdd
  · exact binary_fault rfl rfl rfl rfl hd mauMul
  · exact binary_fault rfl rfl rfl rfl hd mauSub
  · exact Frame.faultOf_drop.trans (faultRaised_of_operands (i := .pop) rfl rfl rfl).symm
  · exact Frame.faultOf_mstore

/-- A body raises the fault of its instruction's row in the table. -/
theorem instrBody_fault {body : Frame → Except FaultCategory Frame} (hb : instrBody memMax i = some body)
    (hd : f.depth ≤ stackMax) : faultOf (body f) = faultRaised i f memMax := by
  rcases instr_cases i with ⟨op, hrow⟩ | ⟨mk, imm, hpush, hi⟩
  · rcases mem_oneByteRows.mp hrow with hsingle | ⟨n, hdup, -⟩ | ⟨n, hswap, -⟩
    · exact single_fault hsingle hb hd
    · obtain rfl : Frame.dup n = body := Option.some.inj ((dupFamily_instrBody hdup memMax).symm.trans hb)
      exact dupFamily_fault hdup hd
    · obtain rfl : Frame.swap n = body := Option.some.inj ((swapFamily_instrBody hswap memMax).symm.trans hb)
      exact swapFamily_fault hswap
  · rw [hi, pushFamily_instrBody hpush] at hb
    cases hb
    rw [pushFamily_fault hpush hd, ← hi]

end Rows

/-! ### Every instruction, and the loop's own cases (R304, R307) -/

section Table
variable {s : State} {k : Nat} {f : Frame}

theorem exec_raises_faultRaised (i : Instr) (hc : s.Current k f) (hd : f.depth ≤ stackMax) (hs : s.fault = none) :
    ∃ t, exec i s = .next t ∧ t.fault = faultRaised i f s.config.memMax := by
  cases hb : instrBody s.config.memMax i with
  | some body =>
    rw [← instrBody_fault hb hd]
    exact exec_fault_of_body hb hc hs
  | none =>
    rcases instrBody_eq_none hb with rfl | rfl
    · exact ⟨_, exec_stop_of_current hc, (State.retire_fault s f).trans hs⟩
    · rw [← Frame.faultOf_returnData]
      exact exec_ret_fault hc hs

theorem step_of_fetch_unsupported (hr : s.run = .running) (hc : s.Current k f) (hpc : f.pc ≠ f.codeEnd) {op : Byte}
    (h : f.fetch = .unsupported op) : step s = .next (s.raise .unsupportedOpcode) := by
  rw [step_running hr (State.frame?_of_current hc), loopPass, if_neg hpc, h]
  exact congrArg _ (State.raise_setFrame s _ _)

end Table

/-- Settles O38: the instructions by their rows, the rest by the branches of the loop. -/
theorem faultTable : Obligations.FaultTable := by
  refine ⟨fun i s k f => exec_raises_faultRaised i, fun s k f hr hc hs => ⟨fun hpc => ?_, fun op hpc hop => ?_⟩⟩
  · exact ⟨_, step_of_end_of_code hr hc hpc, (State.retire_fault s f).trans hs⟩
  · exact ⟨_, step_of_fetch_unsupported hr hc hpc.ne hop, rfl⟩

end Sys2Proof.Machine
end

section
/-! PROOFS. Reset and the model's own stops (70_reset_and_hazards R340, R341, R353). -/

namespace Sys2Proof.Machine

/-- Settles O42: the halted machine stays put, and the running one has a current frame within its code, where neither the
loop nor an instruction stops. -/
theorem stepNeverStuck : Obligations.StepNeverStuck := fun _ => step_answers_next

/-- The run state is not asked for (R341), and of the old state only the parameters stay. -/
theorem hostStep_reset (s : State) : hostStep .reset s = .next ({ State.reset with config := s.config }, .done) := rfl

/-- Settles O54: but for its parameters the state is the one of R44. -/
theorem resetOperation : Obligations.ResetOperation := by
  intro s
  obtain ⟨-, hchain, -, hcur, hlen, hrun, hfault⟩ := resetMeetsMachineInvariant
  have hcells : State.reset.retdata.cells = [] := rfl
  exact ⟨_, hostStep_reset s, hchain, hcur, hlen, hcells, hrun, hfault⟩

end Sys2Proof.Machine
end
